-- ==== Sys2Proof/Word.lean ====
section
/-! DEFINITION. The word types of the CORE (00_scope.md R9): bytes, 64-bit lanes, byte strings. -/

namespace Sys2Proof

/-- A byte: 8 bits, an unsigned integer 0 to 255 (R9). -/
abbrev Byte := BitVec 8

/-- A Keccak lane: 64 bits (R8, R23). -/
abbrev Lane := BitVec 64

/-- A byte string, first byte first (R9). -/
abbrev Bytes := List Byte

end Sys2Proof
end

