-- ==== Sys2Proof/Config.lean ====
section
/-! DEFINITION. What the spec leaves to an implementation (RSA_MAXBYTES) and the free values: constants with no
body, so that nothing can be proved of any particular value (93_implementation_defined.md I1, I2, I3). -/

namespace Sys2Proof

/-- The implementation's choice of RSA capacity, before it is brought into the legal range (log 1). -/
opaque Config.rsaCapacityChoice : Nat

/-- `RSA_MAXBYTES`, the capacity in bytes of an RSA register and the largest RSA payload: OPEN, with
`256 <= RSA_MAXBYTES <= 65535` (R8, 93 I3, D17). Every value of that range is some choice's (log 1). -/
def Config.rsaMaxBytes : Nat := Config.rsaCapacityChoice % 65280 + 256

/-- Whether `n` bytes fit an RSA register: `n <= RSA_MAXBYTES`, which holds of every `n <= 256` whatever the
implementation chose (R8). Written so that it computes where the choice does not matter. -/
def Config.rsaFits (n : Nat) : Bool := decide (n ≤ 256) || decide (n ≤ Config.rsaMaxBytes)

/-- Free bits of width `w`: the value that draw number `draw` gives to place `place` of a register group that
holds no value (10_state.md R21; log 13). -/
opaque Config.freeBits (w draw place : Nat) : BitVec w

/-- A free natural number, as `freeBits` (log 13). -/
opaque Config.freeNat (draw place : Nat) : Nat

end Sys2Proof
end

