-- ==== Sys2Proof/Syntax.lean ====
section
/-! DEFINITION. Commands as the host delivers them (30_encoding.md R90, R91) and the one inductive of
instructions, a constructor for each row of the opcode table (R96). -/

namespace Sys2Proof

/-- A command `(H, P)`: a 32-bit header word and a payload byte string (R90). The port frames the pair, so
`|P|` is known independently of what `H` says. -/
structure Command where
  header : BitVec 32
  payload : Bytes
deriving DecidableEq, Repr

/-- What a command carries besides its opcode: the `ARG` and `LEN` fields of the header (R91) and the payload.
They are kept as delivered, legal or not: an illegal value is answered with an error by the command itself
(R98, R305). -/
structure Fields where
  arg : Byte
  len : BitVec 16
  payload : Bytes
deriving DecidableEq, Repr

/-- The three payload formats of R93. -/
inductive Format where
  /-- `N`: no payload, `LEN` must be 0. -/
  | noPayload
  /-- `P`: `LEN` bytes of payload. -/
  | payload
  /-- `O`: no payload, `LEN` is the number of output bytes wanted. -/
  | output
deriving DecidableEq, Repr

/-- The 26 commands of R96, one constructor for each row of the opcode table. -/
inductive Instr where
  | sysNop (c : Fields)
  | sysReset (c : Fields)
  | sysRdsr (c : Fields)
  | kpLdst (c : Fields)
  | kpRdst (c : Fields)
  | kpPerm (c : Fields)
  | kpRound (c : Fields)
  | shInit (c : Fields)
  | shAbsorb (c : Fields)
  | shFinal (c : Fields)
  | rsaLd (c : Fields)
  | rsaModexp (c : Fields)
  | rsaEncrypt (c : Fields)
  | rsaDecrypt (c : Fields)
  | rsaSign (c : Fields)
  | rsaVerify (c : Fields)
  | rsaSignhash (c : Fields)
  | rsaVerifyhash (c : Fields)
  | aesSetkey (c : Fields)
  | aesEncblk (c : Fields)
  | aesDecblk (c : Fields)
  | aesEncrypt (c : Fields)
  | aesDecrypt (c : Fields)
  | rc4Setkey (c : Fields)
  | rc4Ks (c : Fields)
  | rc4Xor (c : Fields)
deriving DecidableEq, Repr

/-- The fields an instruction carries. -/
def Instr.fields : Instr → Fields
  | .sysNop c => c
  | .sysReset c => c
  | .sysRdsr c => c
  | .kpLdst c => c
  | .kpRdst c => c
  | .kpPerm c => c
  | .kpRound c => c
  | .shInit c => c
  | .shAbsorb c => c
  | .shFinal c => c
  | .rsaLd c => c
  | .rsaModexp c => c
  | .rsaEncrypt c => c
  | .rsaDecrypt c => c
  | .rsaSign c => c
  | .rsaVerify c => c
  | .rsaSignhash c => c
  | .rsaVerifyhash c => c
  | .aesSetkey c => c
  | .aesEncblk c => c
  | .aesDecblk c => c
  | .aesEncrypt c => c
  | .aesDecrypt c => c
  | .rc4Setkey c => c
  | .rc4Ks c => c
  | .rc4Xor c => c

/-- The "Fmt" column of R96. -/
def Instr.format : Instr → Format
  | .sysNop _ => .noPayload
  | .sysReset _ => .noPayload
  | .sysRdsr _ => .noPayload
  | .kpLdst _ => .payload
  | .kpRdst _ => .noPayload
  | .kpPerm _ => .noPayload
  | .kpRound _ => .noPayload
  | .shInit _ => .noPayload
  | .shAbsorb _ => .payload
  | .shFinal _ => .output
  | .rsaLd _ => .payload
  | .rsaModexp _ => .payload
  | .rsaEncrypt _ => .payload
  | .rsaDecrypt _ => .payload
  | .rsaSign _ => .payload
  | .rsaVerify _ => .payload
  | .rsaSignhash _ => .payload
  | .rsaVerifyhash _ => .payload
  | .aesSetkey _ => .payload
  | .aesEncblk _ => .payload
  | .aesDecblk _ => .payload
  | .aesEncrypt _ => .payload
  | .aesDecrypt _ => .payload
  | .rc4Setkey _ => .payload
  | .rc4Ks _ => .output
  | .rc4Xor _ => .payload

end Sys2Proof
end

