-- ==== Sys2Proof/WellFormed.lean ====
section
/-! DEFINITION. What makes a command deliverable (30_encoding.md R90) and what makes it well-formed: stages 2 and 3
of the order of checks (60_exceptions.md R305), which depend on `(H, |P|)` alone. An instruction that is not
well-formed still has a meaning: the error of the first check it fails. -/

namespace Sys2Proof

/-- The port carries payloads of 0 to 65535 bytes (R90). -/
def Instr.deliverable (i : Instr) : Bool := i.fields.payload.length ≤ 65535

/-- The legal `ARG` values of R95, command by command. -/
def Instr.argLegal : Instr → Bool
  | .sysNop c => c.arg.toNat = 0
  | .sysReset c => c.arg.toNat = 0
  | .sysRdsr c => c.arg.toNat ≤ 4
  | .kpLdst c => c.arg.toNat = 0
  | .kpRdst c => c.arg.toNat = 0
  | .kpPerm c => c.arg.toNat = 0
  | .kpRound c => c.arg.toNat ≤ 23
  | .shInit c => c.arg.toNat ≤ 5
  | .shAbsorb c => c.arg.toNat = 0
  | .shFinal c => c.arg.toNat = 0
  | .rsaLd c => c.arg.toNat ≤ 3
  | .rsaModexp c => c.arg.toNat ≤ 3
  | .rsaEncrypt c => c.arg.toNat ≤ 1
  | .rsaDecrypt c => c.arg.toNat ≤ 1
  | .rsaSign c => c.arg.toNat ≤ 1
  | .rsaVerify c => c.arg.toNat ≤ 1
  | .rsaSignhash c => c.arg.toNat ≤ 1
  | .rsaVerifyhash c => 20 ≤ c.arg.toNat ∧ c.arg.toNat ≤ 64
  | .aesSetkey c => c.arg.toNat = 0
  | .aesEncblk c => c.arg.toNat = 0
  | .aesDecblk c => c.arg.toNat = 0
  | .aesEncrypt c => c.arg.toNat = 0
  | .aesDecrypt c => c.arg.toNat = 0
  | .rc4Setkey c => c.arg.toNat = 0
  | .rc4Ks c => c.arg.toNat = 0
  | .rc4Xor c => c.arg.toNat = 0

/-- The framing check of R93: the payload's length against the format and `LEN`. -/
def Instr.framed (i : Instr) : Bool :=
  match i.format with
  | .noPayload => i.fields.len = 0 ∧ i.fields.payload = []
  | .payload => i.fields.payload.length = i.fields.len.toNat
  | .output => i.fields.payload = []

/-- The limits on `LEN` that need no state (the `LEN` column of R96, R66, R305 stage 3). `SH.FINAL`'s digest
length needs `SH.VAR` and is not among them. -/
def Instr.lenLegal : Instr → Bool
  | .kpLdst c => c.len.toNat = 200
  | .rsaLd c => Config.rsaFits c.len.toNat
  | .rsaModexp c => Config.rsaFits c.len.toNat
  | .rsaEncrypt c => Config.rsaFits c.len.toNat
  | .rsaDecrypt c => Config.rsaFits c.len.toNat
  | .rsaSign c => Config.rsaFits c.len.toNat
  | .rsaVerify c => Config.rsaFits c.len.toNat
  | .rsaSignhash c => 20 ≤ c.len.toNat ∧ c.len.toNat ≤ 64
  | .rsaVerifyhash c => decide (c.arg.toNat ≤ c.len.toNat) && Config.rsaFits (c.len.toNat - c.arg.toNat)
  | .aesSetkey c => c.len.toNat = 16 ∨ c.len.toNat = 24 ∨ c.len.toNat = 32
  | .aesEncblk c => c.len.toNat = 16
  | .aesDecblk c => c.len.toNat = 16
  | .aesEncrypt c => c.len.toNat ≤ 65519
  | .aesDecrypt c => c.len.toNat ≠ 0 ∧ c.len.toNat % 16 = 0
  | .rc4Setkey c => 1 ≤ c.len.toNat ∧ c.len.toNat ≤ 256
  | .sysNop _ => true
  | .sysReset _ => true
  | .sysRdsr _ => true
  | .kpRdst _ => true
  | .kpPerm _ => true
  | .kpRound _ => true
  | .shInit _ => true
  | .shAbsorb _ => true
  | .shFinal _ => true
  | .rc4Ks _ => true
  | .rc4Xor _ => true

/-- A command that passes every check that depends on `(H, |P|)` alone (R305 stages 2 and 3). -/
def Instr.wellFormed (i : Instr) : Bool := i.deliverable && i.argLegal && i.framed && i.lenLegal

end Sys2Proof
end

