-- ==== Sys2Proof/Decode.lean ====
section
/-! DEFINITION. Decoding and encoding of commands (30_encoding.md R91, R94, R96, R97, R99): the opcode table, the
decoder, total on any bytes, the encoder, and the cutting of an unframed byte stream. -/

namespace Sys2Proof

/-! The opcode bytes of R96: bits 7:4 name the unit, bits 3:0 the function within it (R91). -/

def Opcode.sysNop : Byte := 0x00
def Opcode.sysReset : Byte := 0x01
def Opcode.sysRdsr : Byte := 0x02
def Opcode.kpLdst : Byte := 0x10
def Opcode.kpRdst : Byte := 0x11
def Opcode.kpPerm : Byte := 0x12
def Opcode.kpRound : Byte := 0x13
def Opcode.shInit : Byte := 0x20
def Opcode.shAbsorb : Byte := 0x21
def Opcode.shFinal : Byte := 0x22
def Opcode.rsaLd : Byte := 0x30
def Opcode.rsaModexp : Byte := 0x31
def Opcode.rsaEncrypt : Byte := 0x32
def Opcode.rsaDecrypt : Byte := 0x33
def Opcode.rsaSign : Byte := 0x34
def Opcode.rsaVerify : Byte := 0x35
def Opcode.rsaSignhash : Byte := 0x36
def Opcode.rsaVerifyhash : Byte := 0x37
def Opcode.aesSetkey : Byte := 0x40
def Opcode.aesEncblk : Byte := 0x41
def Opcode.aesDecblk : Byte := 0x42
def Opcode.aesEncrypt : Byte := 0x43
def Opcode.aesDecrypt : Byte := 0x44
def Opcode.rc4Setkey : Byte := 0x50
def Opcode.rc4Ks : Byte := 0x51
def Opcode.rc4Xor : Byte := 0x52

/-- One row of the opcode map: the opcode byte and the instruction it builds from the other fields. -/
structure OpcodeRow where
  op : Byte
  build : Fields → Instr

/-- The opcode map of R96, in the table's order. -/
def opcodeTable : List OpcodeRow :=
  [⟨Opcode.sysNop, .sysNop⟩, ⟨Opcode.sysReset, .sysReset⟩, ⟨Opcode.sysRdsr, .sysRdsr⟩] ++
  [⟨Opcode.kpLdst, .kpLdst⟩, ⟨Opcode.kpRdst, .kpRdst⟩, ⟨Opcode.kpPerm, .kpPerm⟩, ⟨Opcode.kpRound, .kpRound⟩] ++
  [⟨Opcode.shInit, .shInit⟩, ⟨Opcode.shAbsorb, .shAbsorb⟩, ⟨Opcode.shFinal, .shFinal⟩] ++
  [⟨Opcode.rsaLd, .rsaLd⟩, ⟨Opcode.rsaModexp, .rsaModexp⟩, ⟨Opcode.rsaEncrypt, .rsaEncrypt⟩,
   ⟨Opcode.rsaDecrypt, .rsaDecrypt⟩, ⟨Opcode.rsaSign, .rsaSign⟩, ⟨Opcode.rsaVerify, .rsaVerify⟩,
   ⟨Opcode.rsaSignhash, .rsaSignhash⟩, ⟨Opcode.rsaVerifyhash, .rsaVerifyhash⟩] ++
  [⟨Opcode.aesSetkey, .aesSetkey⟩, ⟨Opcode.aesEncblk, .aesEncblk⟩, ⟨Opcode.aesDecblk, .aesDecblk⟩,
   ⟨Opcode.aesEncrypt, .aesEncrypt⟩, ⟨Opcode.aesDecrypt, .aesDecrypt⟩] ++
  [⟨Opcode.rc4Setkey, .rc4Setkey⟩, ⟨Opcode.rc4Ks, .rc4Ks⟩, ⟨Opcode.rc4Xor, .rc4Xor⟩]

/-- The row of an opcode byte, none for the 230 illegal values (R97). The selection looks at `OP` alone. -/
def opcodeRow (op : Byte) : Option OpcodeRow := opcodeTable.find? (fun r => r.op == op)

/-! Header fields (R91). -/

def Command.op (c : Command) : Byte := c.header.extractLsb' 24 8
def Command.arg (c : Command) : Byte := c.header.extractLsb' 16 8
def Command.len (c : Command) : BitVec 16 := c.header.extractLsb' 0 16

/-- The instruction a delivered command is, none where its opcode is illegal (R96, R97). -/
def decodeCommand (c : Command) : Option Instr :=
  (opcodeRow c.op).map (fun r => r.build ⟨c.arg, c.len, c.payload⟩)

/-- The header word of a byte serialisation: most significant byte first (R94). -/
def headerOf (b0 b1 b2 b3 : Byte) : BitVec 32 := b0 ++ b1 ++ b2 ++ b3

/-- A framed byte sequence as a command: four header bytes, then the payload (R94); none if there are fewer than
four bytes. -/
def commandOfBytes : Bytes → Option Command
  | b0 :: b1 :: b2 :: b3 :: p => some ⟨headerOf b0 b1 b2 b3, p⟩
  | _ => none

/-- The four bytes of a 32-bit word, most significant first (R94, D32). -/
def wordBytes (w : BitVec 32) : Bytes :=
  [w.extractLsb' 24 8, w.extractLsb' 16 8, w.extractLsb' 8 8, w.extractLsb' 0 8]

/-- The byte serialisation of a command (R94). -/
def Command.toBytes (c : Command) : Bytes := wordBytes c.header ++ c.payload

/-- Why a byte sequence is no instruction. -/
inductive DecodeError where
  /-- Fewer than the four header bytes (R94). -/
  | truncated
  /-- The opcode byte is none of the 26 (R97). -/
  | illegalCommand (op : Byte)
deriving DecidableEq, Repr

/-- The decoder: total on any byte sequence, rejecting by name. -/
def decode (bs : Bytes) : Except DecodeError Instr :=
  match commandOfBytes bs with
  | none => .error .truncated
  | some c =>
    match decodeCommand c with
    | none => .error (.illegalCommand c.op)
    | some i => .ok i

/-- The opcode byte of an instruction: the `OP` column of R96. -/
def Instr.op : Instr → Byte
  | .sysNop _ => Opcode.sysNop
  | .sysReset _ => Opcode.sysReset
  | .sysRdsr _ => Opcode.sysRdsr
  | .kpLdst _ => Opcode.kpLdst
  | .kpRdst _ => Opcode.kpRdst
  | .kpPerm _ => Opcode.kpPerm
  | .kpRound _ => Opcode.kpRound
  | .shInit _ => Opcode.shInit
  | .shAbsorb _ => Opcode.shAbsorb
  | .shFinal _ => Opcode.shFinal
  | .rsaLd _ => Opcode.rsaLd
  | .rsaModexp _ => Opcode.rsaModexp
  | .rsaEncrypt _ => Opcode.rsaEncrypt
  | .rsaDecrypt _ => Opcode.rsaDecrypt
  | .rsaSign _ => Opcode.rsaSign
  | .rsaVerify _ => Opcode.rsaVerify
  | .rsaSignhash _ => Opcode.rsaSignhash
  | .rsaVerifyhash _ => Opcode.rsaVerifyhash
  | .aesSetkey _ => Opcode.aesSetkey
  | .aesEncblk _ => Opcode.aesEncblk
  | .aesDecblk _ => Opcode.aesDecblk
  | .aesEncrypt _ => Opcode.aesEncrypt
  | .aesDecrypt _ => Opcode.aesDecrypt
  | .rc4Setkey _ => Opcode.rc4Setkey
  | .rc4Ks _ => Opcode.rc4Ks
  | .rc4Xor _ => Opcode.rc4Xor

/-- The command an instruction is delivered as: header `OP ‖ ARG ‖ LEN` (R91) and the payload. -/
def encode (i : Instr) : Command :=
  ⟨i.op ++ i.fields.arg ++ i.fields.len, i.fields.payload⟩

/-- The bytes of an instruction (R94). -/
def encodeBytes (i : Instr) : Bytes := (encode i).toBytes

/-- How many payload bytes an unframed reader takes after a header, from the header alone: `LEN` for format `P`,
none for `N` and `O`, none for an illegal opcode (R99). -/
def streamPayloadLength (h : BitVec 32) : Nat :=
  match decodeCommand ⟨h, []⟩ with
  | none => 0
  | some i =>
    match i.format with
    | .payload => (Command.len ⟨h, []⟩).toNat
    | .noPayload => 0
    | .output => 0

/-- The first command of an unframed byte stream and the bytes after it (R99); none while the stream does not yet
hold a whole command. -/
def nextCommand : Bytes → Option (Command × Bytes)
  | b0 :: b1 :: b2 :: b3 :: rest =>
    let h := headerOf b0 b1 b2 b3
    let n := streamPayloadLength h
    if n ≤ rest.length then some (⟨h, rest.take n⟩, rest.drop n) else none
  | _ => none

/-- The command whose bits are `w`, numbered as the opcode table numbers them: the header word is bits 31:0, payload
byte `k` is bits `8k+39 : 8k+32`, every bit at or above `nbits` is 0, and the payload is as long as R99 says
(log 12). -/
def tableCommand (nbits w : Nat) : Command :=
  let v := w % 2 ^ nbits
  let h := BitVec.ofNat 32 v
  ⟨h, (List.range (streamPayloadLength h)).map (fun k => BitVec.ofNat 8 (v >>> (8 * k + 32)))⟩

/-- The instruction the decoder reads from the bytes of that command. -/
def decodeTableWord (nbits w : Nat) : Option Instr :=
  match decode (tableCommand nbits w).toBytes with
  | .ok i => some i
  | .error _ => none

end Sys2Proof
end

