-- ==== Sys2Proof/Machine/State.lean ====
section
/-! DEFINITION. The state of the CORE (10_state.md R20), the kinds of its fields, the reasons a step can stop, and
the state after reset (R47). -/

namespace Sys2Proof.Machine

/-- `SH.PHASE` (R25). -/
inductive Phase where
  | idle
  | absorb
deriving DecidableEq, Repr

/-- `SH.VAR`: the six variants, codes 0 to 5 (R25, 41_sha3_shake.md R151). -/
inductive Variant where
  | sha3_224
  | sha3_256
  | sha3_384
  | sha3_512
  | shake128
  | shake256
deriving DecidableEq, Repr

/-- `AES.NK`: the key length in 32-bit words is 4, 6 or 8 (R29). -/
inductive KeySize where
  | nk4
  | nk6
  | nk8
deriving DecidableEq, Repr

/-- One word of the AES key schedule: four bytes in key order, never an integer (20_memory.md R63). -/
structure KeyWord where
  b0 : Byte
  b1 : Byte
  b2 : Byte
  b3 : Byte
deriving DecidableEq, Repr

/-- The 25 lanes, lane `A[x,y]` at index `x + 5y` (R23). -/
abbrev Lanes := Vector Lane 25

/-- The expanded AES key `AES.W[0..59]` (R29). -/
abbrev Schedule := Vector KeyWord 60

/-- The RC4 array `RC4.S[0..255]` (R31). -/
abbrev Rc4Array := Vector Byte 256

/-- The error codes of 60_exceptions.md R301. -/
inductive ErrorCode where
  | illegalCommand
  | illegalOperand
  | badLength
  | notReady
  | badPhase
  | dataTooLarge
  | hashLengthOutOfBounds
  | invalidKeySize
  | badPadding
  | modulusZero
deriving DecidableEq, Repr

/-- The result of a command: `OK` or an error code; eleven values and no others (R301, 93 I8). -/
inductive ResultCode where
  | ok
  | error (e : ErrorCode)
deriving DecidableEq, Repr

/-- A response `(S, Q)`: a 32-bit status word and output bytes (30_encoding.md R90, R92). -/
structure Response where
  status : BitVec 32
  output : Bytes
deriving DecidableEq, Repr

/-- What can arrive from outside: a command at the port (R90), or the external reset (70 R340). -/
inductive HostEvent where
  | command (c : Command)
  | reset
deriving DecidableEq, Repr

/-- The state: everything R20 gives the CORE, then three fields of the model's own. -/
structure State where
  /-- `A[x,y]` (R23). -/
  lanes : Lanes
  /-- `K_VALID` (R24). -/
  kValid : Bool
  /-- `SH.PHASE` (R25). -/
  shPhase : Phase
  /-- `SH.VAR` (R25). -/
  shVar : Variant
  /-- `SH.POS` (R25). -/
  shPos : BitVec 8
  /-- `PUB.N` (R27). -/
  pubN : Nat
  /-- `PUB.E` (R27). -/
  pubE : Nat
  /-- `PRV.N` (R27). -/
  prvN : Nat
  /-- `PRV.D` (R27). -/
  prvD : Nat
  /-- `PUB.NV` (R27). -/
  pubNV : Bool
  /-- `PUB.EV` (R27). -/
  pubEV : Bool
  /-- `PRV.NV` (R27). -/
  prvNV : Bool
  /-- `PRV.DV` (R27). -/
  prvDV : Bool
  /-- `AES.KV` (R29). -/
  aesKV : Bool
  /-- `AES.NK` (R29). -/
  aesNK : KeySize
  /-- `AES.W` (R29). -/
  aesW : Schedule
  /-- `RC4.KEYED` (R31). -/
  rc4Keyed : Bool
  /-- `RC4.S` (R31). -/
  rc4S : Rc4Array
  /-- `RC4.I` (R31). -/
  rc4I : Byte
  /-- `RC4.J` (R31). -/
  rc4J : Byte
  /-- `LASTERR` (R43). -/
  lastErr : BitVec 32
  /-- The model's own: what the host has delivered and the CORE has not yet run, first first (log 6). -/
  inbox : List HostEvent
  /-- The model's own: the responses produced so far, first first (log 7). -/
  outbox : List Response
  /-- The model's own: the number of draws of free values so far (log 13). -/
  freeCount : Nat
deriving DecidableEq, Repr

/-- The reasons the machine stops with a fault. The CORE itself has none (93 Part 1). -/
inductive Fault where
  /-- Raised by `SH.ABSORB` and `SH.FINAL` when a session is open and `SH.POS` is not below the rate of `SH.VAR`:
  41_sha3_shake.md R159 says this never holds, and the byte they would touch may lie outside `KST`
  (20_memory.md R61). No run from reset reaches such a state. Safe (log 11). -/
  | spongePosition
deriving DecidableEq, Repr

/-- The reasons the model gives no meaning to an instruction. -/
inductive Refusal where
  /-- An instruction with no meaning yet, raised by its arm in `exec`; no arm raises it now. Safe. -/
  | notModelled (mnemonic : String)
deriving DecidableEq, Repr

/-- The outcome of a step. -/
abbrev Result := Host.Outcome State Fault Refusal

/-- The machine right after hardware reset: the eight flags and `LASTERR` are 0 (R47); the data registers, to which
the spec gives no value, hold the values log 2 names; nothing delivered, nothing answered. -/
def State.reset : State where
  lanes := Vector.replicate 25 0
  kValid := false
  shPhase := .idle
  shVar := .sha3_224
  shPos := 0
  pubN := 0
  pubE := 0
  prvN := 0
  prvD := 0
  pubNV := false
  pubEV := false
  prvNV := false
  prvDV := false
  aesKV := false
  aesNK := .nk4
  aesW := Vector.replicate 60 ⟨0, 0, 0, 0⟩
  rc4Keyed := false
  rc4S := Vector.replicate 256 0
  rc4I := 0
  rc4J := 0
  lastErr := 0
  inbox := []
  outbox := []
  freeCount := 0

end Sys2Proof.Machine
end

