-- ==== Sys2Proof/Machine/Flags.lean ====
section
/-! DEFINITION. The constants that go with the mode fields (41_sha3_shake.md R151, 44_aes.md R225, 60_exceptions.md
R301), and every flag and status word the spec computes from the state (10_state.md R40 to R46). The CORE has no
arithmetic condition codes (R25). -/

namespace Sys2Proof.Machine

/-- The error code byte of R301. -/
def ErrorCode.code : ErrorCode → Byte
  | .illegalCommand => 0x01
  | .illegalOperand => 0x02
  | .badLength => 0x03
  | .notReady => 0x04
  | .badPhase => 0x05
  | .dataTooLarge => 0x10
  | .hashLengthOutOfBounds => 0x11
  | .invalidKeySize => 0x12
  | .badPadding => 0x13
  | .modulusZero => 0x14

/-- The `CODE` byte of a result: `0x00` is `OK` (R301). -/
def ResultCode.code : ResultCode → Byte
  | .ok => 0x00
  | .error e => e.code

/-- The variant codes of R151. -/
def Variant.code : Variant → Nat
  | .sha3_224 => 0
  | .sha3_256 => 1
  | .sha3_384 => 2
  | .sha3_512 => 3
  | .shake128 => 4
  | .shake256 => 5

/-- The variant of a code, none above 5 (R95, R152). -/
def Variant.ofCode : Nat → Option Variant
  | 0 => some .sha3_224
  | 1 => some .sha3_256
  | 2 => some .sha3_384
  | 3 => some .sha3_512
  | 4 => some .shake128
  | 5 => some .shake256
  | _ => none

/-- The capacity in bits (R151). -/
def Variant.capacity : Variant → Nat
  | .sha3_224 => 448
  | .sha3_256 => 512
  | .sha3_384 => 768
  | .sha3_512 => 1024
  | .shake128 => 256
  | .shake256 => 512

/-- The rate in bytes: `rate = 1600 - capacity` bits (R151). -/
def Variant.rateBytes (v : Variant) : Nat := (1600 - v.capacity) / 8

/-- The domain-separation suffix byte (R151). -/
def Variant.suffix : Variant → Byte
  | .sha3_224 => 0x06
  | .sha3_256 => 0x06
  | .sha3_384 => 0x06
  | .sha3_512 => 0x06
  | .shake128 => 0x1F
  | .shake256 => 0x1F

/-- The digest length in bytes of the fixed-output variants, none for the SHAKE variants (R151). -/
def Variant.digestBytes : Variant → Option Nat
  | .sha3_224 => some 28
  | .sha3_256 => some 32
  | .sha3_384 => some 48
  | .sha3_512 => some 64
  | .shake128 => none
  | .shake256 => none

/-- `Nk`, the AES key length in words (R29). -/
def KeySize.nk : KeySize → Nat
  | .nk4 => 4
  | .nk6 => 6
  | .nk8 => 8

/-- `Nr = Nk + 6`, the number of rounds (R29, R225). -/
def KeySize.nr (k : KeySize) : Nat := k.nk + 6

/-- `4 * (Nr + 1)`, the number of schedule words the key size uses (R29). -/
def KeySize.words (k : KeySize) : Nat := 4 * (k.nr + 1)

/-- The key size of a key of `n` bytes, none unless `n` is 16, 24 or 32 (44_aes.md R233). -/
def KeySize.ofBytes : Nat → Option KeySize
  | 16 => some .nk4
  | 24 => some .nk6
  | 32 => some .nk8
  | _ => none

/-- The `AES_KSZ` code of a loaded key (R42). -/
def KeySize.ksz : KeySize → BitVec 2
  | .nk4 => 1
  | .nk6 => 2
  | .nk8 => 3

/-- `SH.PHASE` as a bit: 1 is ABSORB (R25). -/
def State.absorbing (s : State) : Bool := s.shPhase = .absorb

/-- The `SH_VAR` field of `STATUS`: the code while ABSORB, else 0 (R42). -/
def State.varField (s : State) : BitVec 3 := if s.absorbing then BitVec.ofNat 3 s.shVar.code else 0

/-- The `AES_KSZ` field of `STATUS`: 0 while no key is loaded (R42). -/
def State.kszField (s : State) : BitVec 2 := if s.aesKV then s.aesNK.ksz else 0

/-- `CORE_ID`, a constant (R44). -/
def coreId : BitVec 32 := 0x53415801

/-- `STATUS`, most significant field first (R42). -/
def State.status (s : State) : BitVec 32 :=
  0#15 ++ BitVec.ofBool s.rc4Keyed ++ 0#1 ++ s.kszField ++ BitVec.ofBool s.aesKV ++
  BitVec.ofBool s.prvDV ++ BitVec.ofBool s.prvNV ++ BitVec.ofBool s.pubEV ++ BitVec.ofBool s.pubNV ++
  0#3 ++ s.varField ++ BitVec.ofBool s.absorbing ++ BitVec.ofBool s.kValid

/-- The `DLEN` field of `SH_CFG`: the digest length, 0 for the SHAKE variants (R45). -/
def Variant.dlenField (v : Variant) : Byte := BitVec.ofNat 8 (v.digestBytes.getD 0)

/-- `SH_CFG`: suffix, digest length, rate and position of the open session, 0 while IDLE (R45). -/
def State.shCfg (s : State) : BitVec 32 :=
  if s.absorbing then s.shVar.suffix ++ s.shVar.dlenField ++ BitVec.ofNat 8 s.shVar.rateBytes ++ s.shPos else 0

/-- `RC4_IJ`: the two indices, 0 while no key is loaded (R46). -/
def State.rc4Ij (s : State) : BitVec 32 := if s.rc4Keyed then 0#16 ++ s.rc4J ++ s.rc4I else 0

/-- The value of `LASTERR` after command `op` failed with `e` (R43, R302). -/
def lastErrWord (op : Byte) (e : ErrorCode) : BitVec 32 := 0#16 ++ op ++ e.code

/-- The status word `S` of a response: `OP`, `CODE`, `OLEN` (30_encoding.md R92). -/
def statusWord (op code : Byte) (olen : Nat) : BitVec 32 := op ++ code ++ BitVec.ofNat 16 olen

/-! The fields of a status word (R92). -/

def Response.op (r : Response) : Byte := r.status.extractLsb' 24 8
def Response.code (r : Response) : Byte := r.status.extractLsb' 16 8
def Response.olen (r : Response) : BitVec 16 := r.status.extractLsb' 0 16

/-- The byte serialisation of a response (R94). -/
def Response.toBytes (r : Response) : Bytes := wordBytes r.status ++ r.output

end Sys2Proof.Machine
end

