-- ==== Sys2Proof/Machine/Ops.lean ====
section
/-! DEFINITION. The operations every command is made of: integer and byte conversions (00_scope.md R11), the byte
views of the internal arrays (20_memory.md R61, R62), the register updates, the checks in their order and taking an
error (60_exceptions.md R305, R306), responding (R92), the reset (70 R340), and fetching the next command. -/

namespace Sys2Proof.Machine

/-! Integer and byte conversions (R11). -/

/-- `OS2IP`: big-endian, unsigned; the empty string is 0. -/
def os2ip (p : Bytes) : Nat := p.foldl (fun acc b => acc * 256 + b.toNat) 0

/-- `bytelen v`, the least `n >= 1` with `v < 256^n`. -/
def bytelen (v : Nat) : Nat := if v = 0 then 1 else Nat.log2 v / 8 + 1

/-- The `n` low bytes of `v`, big-endian, in front of `tail`. -/
def i2ospOnto (v : Nat) : Nat → Bytes → Bytes
  | 0, tail => tail
  | n + 1, tail => i2ospOnto (v / 256) n (BitVec.ofNat 8 v :: tail)

/-- `I2OSP v n`: the `n`-byte big-endian string of `v`, for `v < 256^n`. -/
def i2osp (v n : Nat) : Bytes := i2ospOnto v n []

/-- `LE64` of the first 8 bytes of a byte string: little-endian. -/
def le64 (p : Bytes) : Lane :=
  BitVec.ofNat 64 (((p.take 8).foldr (fun b acc => b.toNat + 256 * acc) 0))

/-- `LE64inv`: the 8 bytes of a lane, least significant first. -/
def le64inv (v : Lane) : Bytes := (List.range 8).map (fun k => v.extractLsb' (8 * k) 8)

/-! The internal byte spaces (R61): views of registers, not memories of their own. -/

/-- Byte `k` of `KST`: bits `8*(k mod 8)+7 : 8*(k mod 8)` of lane `k div 8` (R62). No rule uses a `k` above 199. -/
def kstByte (A : Lanes) (k : Nat) : Byte := (A[k / 8]?.getD 0).extractLsb' (8 * (k % 8)) 8

/-- `MemRead(KST, addr, n)` (R12, R61). -/
def kstRead (A : Lanes) (addr n : Nat) : Bytes := (List.range' addr n).map (kstByte A)

/-- "XOR byte `b` into `KST[k]`" (R62). No rule uses a `k` above 199. -/
def kstXor (A : Lanes) (k : Nat) (b : Byte) : Lanes :=
  A.setIfInBounds (k / 8) (A[k / 8]?.getD 0 ^^^ (b.setWidth 64 <<< (8 * (k % 8))))

/-- Lane `i` from bytes `8i .. 8i+7`: what `MemWrite(KST, 0, 200, P)` leaves (R62, R131). -/
def lanesOfBytes (p : Bytes) : Lanes := Vector.ofFn fun i => le64 (p.drop (8 * i.val))

/-- Byte `k` of a key word, `0 <= k <= 3` (R29). -/
def KeyWord.byte (w : KeyWord) : Nat → Byte
  | 0 => w.b0
  | 1 => w.b1
  | 2 => w.b2
  | _ => w.b3

/-- The three internal byte spaces of R61. -/
inductive Space where
  | kst
  | aesw
  | rc4s
deriving DecidableEq, Repr

/-- The size of a space in bytes (R61). -/
def Space.size : Space → Nat
  | .kst => 200
  | .aesw => 240
  | .rc4s => 256

/-- The byte at an address of a space, none outside its size (R61). -/
def State.peek (s : State) (sp : Space) (a : Nat) : Option Byte :=
  match sp with
  | .kst => if a < 200 then some (kstByte s.lanes a) else none
  | .aesw => s.aesW[a / 4]?.map (fun w => w.byte (a % 4))
  | .rc4s => s.rc4S[a]?

/-! Free values: what a register group that holds no value may contain (R21; log 13). -/

@[irreducible] def freeLanes (d : Nat) : Lanes := Vector.ofFn fun i => Config.freeBits 64 d i.val
@[irreducible] def freeVariant (d : Nat) : Variant := (Variant.ofCode (Config.freeNat d 0 % 6)).getD .sha3_224
@[irreducible] def freeRsa (d k : Nat) : Nat := Config.freeNat d k % 256 ^ Config.rsaMaxBytes
@[irreducible] def freeKeySize (d : Nat) : KeySize := (KeySize.ofBytes (16 + 8 * (Config.freeNat d 5 % 3))).getD .nk4
@[irreducible] def freeKeyWord (d i : Nat) : KeyWord :=
  ⟨Config.freeBits 8 d (4 * i), Config.freeBits 8 d (4 * i + 1), Config.freeBits 8 d (4 * i + 2),
    Config.freeBits 8 d (4 * i + 3)⟩
@[irreducible] def freeSchedule (d : Nat) : Schedule := Vector.ofFn fun i => freeKeyWord d i.val
@[irreducible] def freeRc4Array (d : Nat) : Rc4Array := Vector.ofFn fun i => Config.freeBits 8 d (240 + i.val)
def freeRc4I (d : Nat) : Byte := Config.freeBits 8 d 496
def freeRc4J (d : Nat) : Byte := Config.freeBits 8 d 497
def freePos (d : Nat) : BitVec 8 := Config.freeBits 8 d 498

/-! Register updates. Each names the state it writes and writes nothing else. -/

/-- The lanes, the valid flag as it is (R133, R134, R153). -/
def State.setLanes (s : State) (A : Lanes) : State := { s with lanes := A }

/-- The lanes and `K_VALID` (R131). -/
def State.loadLanes (s : State) (A : Lanes) : State := { s with lanes := A, kValid := true }

/-- Open a hash session on all-zero lanes (R152). -/
def State.openSession (s : State) (v : Variant) : State :=
  { s with lanes := Vector.replicate 25 0, kValid := true, shPhase := .absorb, shVar := v, shPos := 0 }

/-- The lanes and `SH.POS` of the open session (R153). -/
def State.setSponge (s : State) (A : Lanes) (pos : Nat) : State :=
  { s with lanes := A, shPos := BitVec.ofNat 8 pos }

/-- Close the session on its last lanes; `SH.VAR` and `SH.POS` cease to hold a value (R155, R156; log 4). -/
def State.closeSession (s : State) (A : Lanes) : State :=
  { s with lanes := A, shPhase := .idle, shVar := freeVariant s.freeCount, shPos := freePos s.freeCount,
           freeCount := s.freeCount + 1 }

/-- The AES schedule, its key size and its valid flag; words beyond the key size hold no value (R29, R233; log 5). -/
def State.loadAesKey (s : State) (k : KeySize) (ws : List KeyWord) : State :=
  { s with aesNK := k, aesKV := true, freeCount := s.freeCount + 1,
           aesW := Vector.ofFn fun i => if i.val < k.words then ws.getD i.val ⟨0, 0, 0, 0⟩
                                        else freeKeyWord s.freeCount i.val }

/-- The key stream's three registers (45_rc4.md R31, R263). -/
structure Rc4Stream where
  arr : Rc4Array
  i : Byte
  j : Byte
deriving DecidableEq, Repr

/-- The stream registers as one value. -/
def State.stream (s : State) : Rc4Stream := ⟨s.rc4S, s.rc4I, s.rc4J⟩

/-- The stream registers, the valid flag as it is (R264, R265). -/
def State.setStream (s : State) (t : Rc4Stream) : State := { s with rc4S := t.arr, rc4I := t.i, rc4J := t.j }

/-- The stream registers and `RC4.KEYED` (R262). -/
def State.loadRc4Key (s : State) (t : Rc4Stream) : State :=
  { s with rc4S := t.arr, rc4I := t.i, rc4J := t.j, rc4Keyed := true }

/-- The reset of the CORE: the eight flags and `LASTERR` become 0, every data register holds no value
(R47, R281, R340; log 3). -/
def State.resetCore (s : State) : State :=
  { s with
    lanes := freeLanes s.freeCount
    kValid := false
    shPhase := .idle
    shVar := freeVariant s.freeCount
    shPos := freePos s.freeCount
    pubN := freeRsa s.freeCount 1
    pubE := freeRsa s.freeCount 2
    prvN := freeRsa s.freeCount 3
    prvD := freeRsa s.freeCount 4
    pubNV := false
    pubEV := false
    prvNV := false
    prvDV := false
    aesKV := false
    aesNK := freeKeySize s.freeCount
    aesW := freeSchedule s.freeCount
    rc4Keyed := false
    rc4S := freeRc4Array s.freeCount
    rc4I := freeRc4I s.freeCount
    rc4J := freeRc4J s.freeCount
    lastErr := 0
    freeCount := s.freeCount + 1 }

/-- `LASTERR` (R43). -/
def State.setLastErr (s : State) (w : BitVec 32) : State := { s with lastErr := w }

/-- One more response for the host (R90; log 7). -/
def State.push (s : State) (r : Response) : State := { s with outbox := s.outbox ++ [r] }

/-- What the host has yet to see run (log 6). -/
def State.setInbox (s : State) (es : List HostEvent) : State := { s with inbox := es }

/-! Ending a command. -/

/-- `respond(Q)`: a successful end, `CODE = 0` and `OLEN = |Q|` (R12, R92). -/
def respond (op : Byte) (q : Bytes) (s : State) : State :=
  s.push ⟨statusWord op ResultCode.ok.code q.length, q⟩

/-- TAKING AN ERROR, the CORE's one kind of exception (R306): `LASTERR` records the opcode and the code (R302), the
response carries the code and no output (R92); nothing else changes (R303). There is no mode, mask, vector or saved
state, and nothing returns from an error: the CORE is at once ready for the next command (R307). -/
def takeError (op : Byte) (e : ErrorCode) (s : State) : State :=
  (s.setLastErr (lastErrWord op e)).push ⟨statusWord op (ResultCode.error e).code 0, []⟩

/-- One check of a command: the error to take where it fails. -/
structure Check where
  fails : Bool
  err : ErrorCode
deriving DecidableEq, Repr

/-- The first error that applies, in the order of the list (R305). -/
def firstError : List Check → Option ErrorCode
  | [] => none
  | c :: cs => if c.fails then some c.err else firstError cs

/-- A command: its checks in order, and where all pass its effect (R305). -/
def attempt (op : Byte) (checks : List Check) (s : State) (effect : State → Result) : Result :=
  match firstError checks with
  | some e => .next (takeError op e s)
  | none => effect s

/-- The end of a command that writes nothing: the output, or the error its data raises (R305 stage 5). -/
def answer (op : Byte) (r : Except ErrorCode Bytes) (s : State) : Result :=
  match r with
  | .error e => .next (takeError op e s)
  | .ok q => .next (respond op q s)

/-! Fetching: the next thing the host has delivered (R3, R22). -/

/-- What stands at the head of the inbox, and the state without it. -/
inductive Fetched where
  /-- Nothing is delivered. -/
  | idle
  /-- The external reset. -/
  | reset (s : State)
  /-- A command whose opcode is illegal (R97). -/
  | illegal (op : Byte) (s : State)
  /-- A command. -/
  | run (i : Instr) (s : State)

/-- Take the next event from the inbox and decode it. -/
def fetch (s : State) : Fetched :=
  match s.inbox with
  | [] => .idle
  | .reset :: rest => .reset (s.setInbox rest)
  | .command c :: rest =>
    match decodeCommand c with
    | none => .illegal c.op (s.setInbox rest)
    | some i => .run i (s.setInbox rest)

end Sys2Proof.Machine
end

