-- ==== Sys2Proof/Machine/Operands.lean ====
section
/-! DEFINITION. Operand forms (30_encoding.md R93, R95): what `ARG` names, command by command, and the framing and
length checks. `ARG` and `LEN` are unsigned and never extended or scaled. -/

namespace Sys2Proof.Machine

/-- The framing check of R93 fails: format `N` wants `LEN = 0` and no payload, `P` wants `|P| = LEN`, `O` wants no
payload. -/
def badFrame (f : Format) (c : Fields) : Bool :=
  match f with
  | .noPayload => decide (c.len.toNat ≠ 0) || decide (c.payload.length ≠ 0)
  | .payload => decide (c.payload.length ≠ c.len.toNat)
  | .output => decide (c.payload.length ≠ 0)

/-- `ARG` where the command has none: it must be 0 (R95). -/
def argNotZero (c : Fields) : Bool := decide (c.arg.toNat ≠ 0)

/-- `ARG` above a command's largest legal value (R95). -/
def argAbove (n : Nat) (c : Fields) : Bool := decide (n < c.arg.toNat)

/-- An RSA payload that does not fit: `LEN > RSA_MAXBYTES` (R184 to R190). -/
def rsaTooLong (c : Fields) : Bool := !Config.rsaFits c.len.toNat

/-- A digest length outside 20 to 64 bytes (R191, R192). -/
def badDigestLength (n : Nat) : Bool := decide (n < 20) || decide (64 < n)

/-- `ARG` bit 0, `PAD` (R95). -/
def padBit (c : Fields) : Bool := c.arg.getLsbD 0

/-- An RSA key slot (R27, R95). -/
inductive Slot where
  | pub
  | prv
deriving DecidableEq, Repr

/-- `ARG` bit 1, `SLOT`: 0 `PUB`, 1 `PRV` (R95). -/
def slotOf (c : Fields) : Slot := if c.arg.getLsbD 1 then .prv else .pub

/-- The modulus register of a slot (R185). -/
def State.modulus (s : State) : Slot → Nat
  | .pub => s.pubN
  | .prv => s.prvN

/-- The exponent register of a slot (R185). -/
def State.exponent (s : State) : Slot → Nat
  | .pub => s.pubE
  | .prv => s.prvD

/-- Both registers of a slot are loaded (R185, R186). -/
def State.slotReady (s : State) : Slot → Bool
  | .pub => s.pubNV && s.pubEV
  | .prv => s.prvNV && s.prvDV

/-- The four RSA registers (R27). -/
inductive RsaReg where
  | pubN
  | pubE
  | prvN
  | prvD
deriving DecidableEq, Repr

/-- The register of a register number, none above 3 (R95, R184). -/
def RsaReg.ofNumber : Nat → Option RsaReg
  | 0 => some .pubN
  | 1 => some .pubE
  | 2 => some .prvN
  | 3 => some .prvD
  | _ => none

/-- Load an RSA register and set its valid flag (R27, R184). -/
def State.loadRsa (s : State) (r : RsaReg) (v : Nat) : State :=
  match r with
  | .pubN => { s with pubN := v, pubNV := true }
  | .pubE => { s with pubE := v, pubEV := true }
  | .prvN => { s with prvN := v, prvNV := true }
  | .prvD => { s with prvD := v, prvDV := true }

/-- The five control and status registers (R41). -/
inductive Csr where
  | coreId
  | status
  | lastErr
  | shCfg
  | rc4Ij
deriving DecidableEq, Repr

/-- The CSR of a CSR number, none above 4 (R41, R95). -/
def Csr.ofNumber : Nat → Option Csr
  | 0 => some .coreId
  | 1 => some .status
  | 2 => some .lastErr
  | 3 => some .shCfg
  | 4 => some .rc4Ij
  | _ => none

/-- The value of a CSR: a function of the state (R40). -/
def State.csr (s : State) : Csr → BitVec 32
  | .coreId => Machine.coreId
  | .status => s.status
  | .lastErr => s.lastErr
  | .shCfg => s.shCfg
  | .rc4Ij => s.rc4Ij

end Sys2Proof.Machine
end

