-- ==== Sys2Proof/Machine/Aes.lean ====
section
/-! DEFINITION. AES: field arithmetic, tables, key schedule, block cipher, PKCS#7 and ECB (44_aes.md R221 to R239),
and the five commands of the unit (R233 to R237). -/

namespace Sys2Proof.Machine

/-- Multiplication by x in the field of 0x11b (R221). -/
def xtime (a : Byte) : Byte := if a.toNat < 128 then a <<< 1 else (a <<< 1) ^^^ 0x1b

/-- `xtime` applied `i` times (R221). -/
def xtimes : Nat → Byte → Byte
  | 0, a => a
  | i + 1, a => xtime (xtimes i a)

/-- `gmul(a, c)`: XOR, over the set bits `i` of `c`, of `xtime` applied `i` times to `a` (R221). -/
def gmul (a c : Byte) : Byte :=
  (List.range 8).foldl (fun acc i => if c.getLsbD i then acc ^^^ xtimes i a else acc) 0

/-- A row of an S-box table as R222 prints it: sixteen bytes, column 0 first. -/
abbrev SboxRow := BitVec 128

/-- The S-box, rows 0 to f (R222). -/
def sboxRows : List SboxRow :=
  [0x637c777bf26b6fc53001672bfed7ab76, 0xca82c97dfa5947f0add4a2af9ca472c0,
   0xb7fd9326363ff7cc34a5e5f171d83115, 0x04c723c31896059a071280e2eb27b275] ++
  [0x09832c1a1b6e5aa0523bd6b329e32f84, 0x53d100ed20fcb15b6acbbe394a4c58cf,
   0xd0efaafb434d338545f9027f503c9fa8, 0x51a3408f929d38f5bcb6da2110fff3d2] ++
  [0xcd0c13ec5f974417c4a77e3d645d1973, 0x60814fdc222a908846eeb814de5e0bdb,
   0xe0323a0a4906245cc2d3ac629195e479, 0xe7c8376d8dd54ea96c56f4ea657aae08] ++
  [0xba78252e1ca6b4c6e8dd741f4bbd8b8a, 0x703eb5664803f60e613557b986c11d9e,
   0xe1f8981169d98e949b1e87e9ce5528df, 0x8ca1890dbfe6426841992d0fb054bb16]

/-- The inverse S-box, rows 0 to f (R223). -/
def invSboxRows : List SboxRow :=
  [0x52096ad53036a538bf40a39e81f3d7fb, 0x7ce339829b2fff87348e4344c4dee9cb,
   0x547b9432a6c2233dee4c950b42fac34e, 0x082ea16628d924b2765ba2496d8bd125] ++
  [0x72f8f66486689816d4a45ccc5d65b692, 0x6c704850fdedb9da5e154657a78d9d84,
   0x90d8ab008cbcd30af7e45805b8b34506, 0xd02c1e8fca3f0f02c1afbd0301138a6b] ++
  [0x3a9111414f67dcea97f2cfcef0b4e673, 0x96ac7422e7ad3585e2f937e81c75df6e,
   0x47f11a711d29c5896fb7620eaa18be1b, 0xfc563e4bc6d279209adbc0fe78cd5af4] ++
  [0x1fdda8338807c731b11210592780ec5f, 0x60517fa919b54a0d2de57a9f93c99cef,
   0xa0e03b4dae2af5b0c8ebbb3c83539961, 0x172b047eba77d626e169146355210c7d]

/-- The entry of a table: row = high hex digit, column = low hex digit (R222). -/
def sboxEntry (rows : List SboxRow) (a : Byte) : Byte :=
  (rows.getD (a.toNat / 16) 0).extractLsb' (8 * (15 - a.toNat % 16)) 8

def sbox (a : Byte) : Byte := sboxEntry sboxRows a
def invSbox (a : Byte) : Byte := sboxEntry invSboxRows a

/-- The round-constant bytes `RC1[1..10]` (R224). -/
def rc1 : List Byte := [0x01, 0x02, 0x04, 0x08, 0x10, 0x20, 0x40, 0x80, 0x1b, 0x36]

/-! Key schedule (R225). -/

def KeyWord.zero : KeyWord := ⟨0, 0, 0, 0⟩
def KeyWord.xor (a b : KeyWord) : KeyWord := ⟨a.b0 ^^^ b.b0, a.b1 ^^^ b.b1, a.b2 ^^^ b.b2, a.b3 ^^^ b.b3⟩
/-- RotWord: the first byte moves to the end (R225). -/
def rotWord (w : KeyWord) : KeyWord := ⟨w.b1, w.b2, w.b3, w.b0⟩
def subWord (w : KeyWord) : KeyWord := ⟨sbox w.b0, sbox w.b1, sbox w.b2, sbox w.b3⟩
/-- The word `Rcon[j]`, `j` from 1 (R224). -/
def rcon (j : Nat) : KeyWord := ⟨rc1.getD (j - 1) 0, 0, 0, 0⟩

/-- The words of the key itself: `W[0 .. Nk-1]` (R225, R226). -/
def keyWords (k : KeySize) (key : Bytes) : List KeyWord :=
  (List.range k.nk).map fun i =>
    ⟨key.getD (4 * i) 0, key.getD (4 * i + 1) 0, key.getD (4 * i + 2) 0, key.getD (4 * i + 3) 0⟩

/-- The transformation of `W[i-1]` that goes into `W[i]` (R225; the SubWord-only step at `i mod Nk = 4`, 90 C9). -/
def scheduleTemp (k : KeySize) (i : Nat) (t : KeyWord) : KeyWord :=
  if i % k.nk = 0 then (subWord (rotWord t)).xor (rcon (i / k.nk))
  else if 6 < k.nk ∧ i % k.nk = 4 then subWord t
  else t

/-- `W[i]` from the words before it (R225). -/
def nextWord (k : KeySize) (ws : List KeyWord) (i : Nat) : KeyWord :=
  (ws.getD (i - k.nk) .zero).xor (scheduleTemp k i (ws.getD (i - 1) .zero))

/-- Key expansion: `W[0 .. 4*(Nr+1)-1]` (R225). -/
def expandKey (k : KeySize) (key : Bytes) : List KeyWord :=
  (List.range' k.nk (k.words - k.nk)).foldl (fun ws i => ws ++ [nextWord k ws i]) (keyWords k key)

/-! Round steps on a block: byte `r + 4c` is `s[r,c]` (20_memory.md R64). -/

/-- A 16-byte block. -/
abbrev Block := Vector Byte 16

/-- `s[r,c]`, indices modulo 4 (R64). -/
def cell (s : Block) (r c : Nat) : Byte := s[r % 4 + 4 * (c % 4)]'(by omega)

/-- The block whose `s[r,c]` is `f r c` (R64). -/
def blockOf (f : Nat → Nat → Byte) : Block := Vector.ofFn fun k => f (k.val % 4) (k.val / 4)

/-- The block of 16 payload bytes. -/
def blockOfBytes (p : Bytes) : Block := Vector.ofFn fun k => p.getD k.val 0

/-- `AddRoundKey(s, rnd)`: word `4*rnd + c` is column `c` (R227). -/
def addRoundKey (W : Schedule) (rnd : Nat) (s : Block) : Block :=
  blockOf fun r c => cell s r c ^^^ (W[4 * rnd + c]?.getD .zero).byte r

def subBytes (s : Block) : Block := blockOf fun r c => sbox (cell s r c)
def invSubBytes (s : Block) : Block := blockOf fun r c => invSbox (cell s r c)

/-- `ShiftRows`: row `r` rotated left by `r` (R229). -/
def shiftRows (s : Block) : Block := blockOf fun r c => cell s r (c + r)
/-- `InvShiftRows`: `s[r, c - r]`, the difference modulo 4 (R229). -/
def invShiftRows (s : Block) : Block := blockOf fun r c => cell s r (c + 4 - r)

/-- One column of `MixColumns`, row by row (R230). -/
def mixColumn (a0 a1 a2 a3 : Byte) : Nat → Byte
  | 0 => gmul a0 2 ^^^ gmul a1 3 ^^^ a2 ^^^ a3
  | 1 => a0 ^^^ gmul a1 2 ^^^ gmul a2 3 ^^^ a3
  | 2 => a0 ^^^ a1 ^^^ gmul a2 2 ^^^ gmul a3 3
  | _ => gmul a0 3 ^^^ a1 ^^^ a2 ^^^ gmul a3 2

/-- One column of `InvMixColumns`, row by row (R230). -/
def invMixColumn (a0 a1 a2 a3 : Byte) : Nat → Byte
  | 0 => gmul a0 14 ^^^ gmul a1 11 ^^^ gmul a2 13 ^^^ gmul a3 9
  | 1 => gmul a0 9 ^^^ gmul a1 14 ^^^ gmul a2 11 ^^^ gmul a3 13
  | 2 => gmul a0 13 ^^^ gmul a1 9 ^^^ gmul a2 14 ^^^ gmul a3 11
  | _ => gmul a0 11 ^^^ gmul a1 13 ^^^ gmul a2 9 ^^^ gmul a3 14

def mixColumns (s : Block) : Block := blockOf fun r c => mixColumn (cell s 0 c) (cell s 1 c) (cell s 2 c) (cell s 3 c) r
def invMixColumns (s : Block) : Block :=
  blockOf fun r c => invMixColumn (cell s 0 c) (cell s 1 c) (cell s 2 c) (cell s 3 c) r

/-- A middle round of the cipher (R231). -/
def encRound (W : Schedule) (s : Block) (rnd : Nat) : Block :=
  addRoundKey W rnd (mixColumns (shiftRows (subBytes s)))

/-- A middle round of the inverse cipher (R232). -/
def decRound (W : Schedule) (s : Block) (rnd : Nat) : Block :=
  invMixColumns (addRoundKey W rnd (invSubBytes (invShiftRows s)))

/-- The rounds between the first and the last AddRoundKey, `1 .. Nr-1` (R231, R232). -/
def middleRounds (k : KeySize) : List Nat := List.range' 1 (k.nr - 1)

/-- `ENC_BLOCK` (R231). -/
def encBlock (k : KeySize) (W : Schedule) (b : Block) : Block :=
  addRoundKey W k.nr (shiftRows (subBytes ((middleRounds k).foldl (encRound W) (addRoundKey W 0 b))))

/-- `DEC_BLOCK` (R232). -/
def decBlock (k : KeySize) (W : Schedule) (b : Block) : Block :=
  addRoundKey W 0
    (invSubBytes (invShiftRows ((middleRounds k).reverse.foldl (decRound W) (addRoundKey W k.nr b))))

/-! Padding and mode. -/

/-- PKCS#7 padding over 16-byte blocks (R238). -/
def pkcs7Pad (m : Bytes) : Bytes :=
  m ++ List.replicate (16 - m.length % 16) (BitVec.ofNat 8 (16 - m.length % 16))

/-- PKCS#7 removal: none where the padding is bad (R238, D24). -/
def pkcs7Unpad (x : Bytes) : Option Bytes :=
  let p := (x.getLastD 0).toNat
  if p < 1 ∨ 16 < p ∨ x.drop (x.length - p) ≠ List.replicate p (BitVec.ofNat 8 p) then none
  else some (x.take (x.length - p))

/-- ECB: `n` blocks, each on its own, in order (R239). -/
def ecbBlocks (f : Block → Block) : Nat → Bytes → Bytes
  | 0, _ => []
  | n + 1, p => (f (blockOfBytes (p.take 16))).toList ++ ecbBlocks f n (p.drop 16)

/-- ECB over a byte string whose length is a multiple of 16 (R239). -/
def ecb (f : Block → Block) (p : Bytes) : Bytes := ecbBlocks f (p.length / 16) p

/-- The cipher under the loaded key (R231). -/
def State.encBlock (s : State) (b : Block) : Block := Machine.encBlock s.aesNK s.aesW b
/-- The inverse cipher under the loaded key (R232). -/
def State.decBlock (s : State) (b : Block) : Block := Machine.decBlock s.aesNK s.aesW b

/-- `AES.SETKEY` (R233). -/
def execAesSetkey (c : Fields) (s : State) : Result :=
  attempt Opcode.aesSetkey [⟨argNotZero c, .illegalOperand⟩, ⟨badFrame .payload c, .badLength⟩] s fun s =>
    match KeySize.ofBytes c.len.toNat with
    | none => .next (takeError Opcode.aesSetkey .invalidKeySize s)
    | some k => .next (respond Opcode.aesSetkey [] (s.loadAesKey k (expandKey k c.payload)))

/-- `AES.ENCBLK` (R234). -/
def execAesEncblk (c : Fields) (s : State) : Result :=
  attempt Opcode.aesEncblk
    [⟨argNotZero c, .illegalOperand⟩, ⟨badFrame .payload c || decide (c.len.toNat ≠ 16), .badLength⟩,
     ⟨!s.aesKV, .notReady⟩] s fun s =>
    .next (respond Opcode.aesEncblk (s.encBlock (blockOfBytes c.payload)).toList s)

/-- `AES.DECBLK` (R235). -/
def execAesDecblk (c : Fields) (s : State) : Result :=
  attempt Opcode.aesDecblk
    [⟨argNotZero c, .illegalOperand⟩, ⟨badFrame .payload c || decide (c.len.toNat ≠ 16), .badLength⟩,
     ⟨!s.aesKV, .notReady⟩] s fun s =>
    .next (respond Opcode.aesDecblk (s.decBlock (blockOfBytes c.payload)).toList s)

/-- `AES.ENCRYPT` (R236): the limit keeps the output within `OLEN`. -/
def execAesEncrypt (c : Fields) (s : State) : Result :=
  attempt Opcode.aesEncrypt
    [⟨argNotZero c, .illegalOperand⟩, ⟨badFrame .payload c || decide (65519 < c.len.toNat), .badLength⟩,
     ⟨!s.aesKV, .notReady⟩] s fun s =>
    .next (respond Opcode.aesEncrypt (ecb s.encBlock (pkcs7Pad c.payload)) s)

/-- The padding error as the answer's error (R237). -/
def unpadOrError (x : Bytes) : Except ErrorCode Bytes :=
  match pkcs7Unpad x with
  | none => .error .badPadding
  | some q => .ok q

/-- `AES.DECRYPT` (R237). -/
def execAesDecrypt (c : Fields) (s : State) : Result :=
  attempt Opcode.aesDecrypt
    [⟨argNotZero c, .illegalOperand⟩,
     ⟨badFrame .payload c || decide (c.len.toNat = 0) || decide (c.len.toNat % 16 ≠ 0), .badLength⟩,
     ⟨!s.aesKV, .notReady⟩] s fun s =>
    answer Opcode.aesDecrypt (unpadOrError (ecb s.decBlock c.payload)) s

end Sys2Proof.Machine
end

