-- ==== Sys2Proof/Machine/Rc4.lean ====
section
/-! DEFINITION. RC4 (45_rc4.md R260 to R263) and the three commands of the unit (R262, R264, R265). All arithmetic
is on bytes, modulo 256. -/

namespace Sys2Proof.Machine

/-- `S[i]`. -/
def arrGet (S : Rc4Array) (i : Byte) : Byte := S[i.toNat]'i.isLt

/-- Swap `S[i]` and `S[j]`; nothing changes where `i = j` (R261). -/
def arrSwap (S : Rc4Array) (i j : Byte) : Rc4Array :=
  (S.set i.toNat (arrGet S j) i.isLt).set j.toNat (arrGet S i) j.isLt

/-- The identity array `S[i] = i` (R261). -/
def arrIdentity : Rc4Array := Vector.ofFn fun i => BitVec.ofNat 8 i.val

/-- One of the 256 swap steps of the key scheduling, on `S` and the transient `j` (R261). -/
def ksaStep (key : Bytes) (t : Rc4Array × Byte) (i : Nat) : Rc4Array × Byte :=
  let j := t.2 + arrGet t.1 (BitVec.ofNat 8 i) + key.getD (i % key.length) 0
  (arrSwap t.1 (BitVec.ofNat 8 i) j, j)

/-- `KSA(K)` (R261). -/
def ksa (key : Bytes) : Rc4Array := ((List.range 256).foldl (ksaStep key) (arrIdentity, 0)).1

/-- One generation step: the stream after it and its key-stream byte (R263). -/
def prgaStep (t : Rc4Stream) : Rc4Stream × Byte :=
  let i := t.i + 1
  let j := t.j + arrGet t.arr i
  let S := arrSwap t.arr i j
  (⟨S, i, j⟩, arrGet S (arrGet S i + arrGet S j))

/-- `n` generation steps (R264). -/
def keyStream : Nat → Rc4Stream → Rc4Stream × Bytes
  | 0, t => (t, [])
  | n + 1, t =>
    let k := prgaStep t
    let rest := keyStream n k.1
    (rest.1, k.2 :: rest.2)

/-- A generation step for each data byte, XORed with it (R265). -/
def xorStream : Bytes → Rc4Stream → Rc4Stream × Bytes
  | [], t => (t, [])
  | b :: bs, t =>
    let k := prgaStep t
    let rest := xorStream bs k.1
    (rest.1, (b ^^^ k.2) :: rest.2)

/-- `RC4.SETKEY` (R262). -/
def execRc4Setkey (c : Fields) (s : State) : Result :=
  attempt Opcode.rc4Setkey
    [⟨argNotZero c, .illegalOperand⟩, ⟨badFrame .payload c, .badLength⟩,
     ⟨decide (c.len.toNat < 1) || decide (256 < c.len.toNat), .invalidKeySize⟩] s fun s =>
    .next (respond Opcode.rc4Setkey [] (s.loadRc4Key ⟨ksa c.payload, 0, 0⟩))

/-- `RC4.KS` (R264): `LEN` is the number of bytes wanted. -/
def execRc4Ks (c : Fields) (s : State) : Result :=
  attempt Opcode.rc4Ks
    [⟨argNotZero c, .illegalOperand⟩, ⟨badFrame .output c, .badLength⟩, ⟨!s.rc4Keyed, .notReady⟩] s fun s =>
    let z := keyStream c.len.toNat s.stream
    .next (respond Opcode.rc4Ks z.2 (s.setStream z.1))

/-- `RC4.XOR` (R265). -/
def execRc4Xor (c : Fields) (s : State) : Result :=
  attempt Opcode.rc4Xor
    [⟨argNotZero c, .illegalOperand⟩, ⟨badFrame .payload c, .badLength⟩, ⟨!s.rc4Keyed, .notReady⟩] s fun s =>
    let z := xorStream c.payload s.stream
    .next (respond Opcode.rc4Xor z.2 (s.setStream z.1))

end Sys2Proof.Machine
end

