-- ==== Sys2Proof/Machine/Rsa.lean ====
section
/-! DEFINITION. Modular exponentiation and textbook RSA (43_rsa_modexp.md R180 to R192). -/

namespace Sys2Proof.Machine

/-- The number of bits of an exponent; 0 has none (R181). -/
def bitlen (e : Nat) : Nat := if e = 0 then 0 else Nat.log2 e + 1

/-- Square-and-multiply over the `i` low bits of `e`, most significant first (R181). -/
def modexpLoop (b e m : Nat) : Nat → Nat → Nat
  | 0, r => r
  | i + 1, r =>
    let q := r * r % m
    modexpLoop b e m i (if e.testBit i then q * b % m else q)

/-- `MODEXP(b, e, m)` for `m >= 1` (R181). -/
def modexp (b e m : Nat) : Nat := if m = 1 then 0 else modexpLoop (b % m) e m (bitlen e) 1

/-- `RSAOUT(v, PAD, N)`: shortest form, or padded to the byte length of the modulus (R183). -/
def rsaOut (v : Nat) (pad : Bool) (n : Nat) : Bytes := i2osp v (if pad then bytelen n else bytelen v)

/-- `CHECKED(slot, P, PAD)` (R186). -/
def checked (slot : Slot) (p : Bytes) (pad : Bool) (s : State) : Except ErrorCode Bytes :=
  if s.slotReady slot = false then .error .notReady
  else if s.modulus slot ≤ os2ip p then .error .dataTooLarge
  else .ok (rsaOut (modexp (os2ip p) (s.exponent slot) (s.modulus slot)) pad (s.modulus slot))

/-- A checked command with a `PAD` flag, `op` on `slot` (R187 to R190). -/
def rsaChecked (op : Byte) (slot : Slot) (c : Fields) (s : State) : Result :=
  attempt op
    [⟨argAbove 1 c, .illegalOperand⟩, ⟨badFrame .payload c || rsaTooLong c, .badLength⟩] s fun s =>
    answer op (checked slot c.payload (padBit c) s) s

/-- `RSA.LD` (R184). -/
def execRsaLd (c : Fields) (s : State) : Result :=
  match RsaReg.ofNumber c.arg.toNat with
  | none => .next (takeError Opcode.rsaLd .illegalOperand s)
  | some r =>
    attempt Opcode.rsaLd [⟨badFrame .payload c || rsaTooLong c, .badLength⟩] s fun s =>
      .next (respond Opcode.rsaLd [] (s.loadRsa r (os2ip c.payload)))

/-- `RSA.MODEXP` (R185): the base is reduced, not refused. -/
def execRsaModexp (c : Fields) (s : State) : Result :=
  attempt Opcode.rsaModexp
    [⟨argAbove 3 c, .illegalOperand⟩, ⟨badFrame .payload c || rsaTooLong c, .badLength⟩,
     ⟨!s.slotReady (slotOf c), .notReady⟩, ⟨decide (s.modulus (slotOf c) = 0), .modulusZero⟩] s fun s =>
    let n := s.modulus (slotOf c)
    .next (respond Opcode.rsaModexp
      (rsaOut (modexp (os2ip c.payload) (s.exponent (slotOf c)) n) (padBit c) n) s)

/-- `RSA.ENCRYPT` (R187): `data^PUB.E mod PUB.N`. -/
def execRsaEncrypt (c : Fields) (s : State) : Result := rsaChecked Opcode.rsaEncrypt .pub c s

/-- `RSA.DECRYPT` (R188): `ct^PRV.D mod PRV.N`. -/
def execRsaDecrypt (c : Fields) (s : State) : Result := rsaChecked Opcode.rsaDecrypt .prv c s

/-- `RSA.SIGN` (R189): `data^PRV.D mod PRV.N`. -/
def execRsaSign (c : Fields) (s : State) : Result := rsaChecked Opcode.rsaSign .prv c s

/-- `RSA.VERIFY` (R190): `sig^PUB.E mod PUB.N`; it recovers, it does not compare. -/
def execRsaVerify (c : Fields) (s : State) : Result := rsaChecked Opcode.rsaVerify .pub c s

/-- `RSA.SIGNHASH` (R191): the digest length is checked before the key is looked at. -/
def execRsaSignhash (c : Fields) (s : State) : Result :=
  attempt Opcode.rsaSignhash
    [⟨argAbove 1 c, .illegalOperand⟩, ⟨badFrame .payload c, .badLength⟩,
     ⟨badDigestLength c.len.toNat, .hashLengthOutOfBounds⟩] s fun s =>
    answer Opcode.rsaSignhash (checked .prv c.payload (padBit c) s) s

/-- The verdict of `RSA.VERIFYHASH`: `01` where the recovered integer is the digest's, else `00` (R192). -/
def verdict (digest recovered : Bytes) : Bytes := if os2ip recovered = os2ip digest then [0x01] else [0x00]

/-- `RSA.VERIFYHASH` (R192): `ARG` is the digest length; a mismatch is an answer, not an error (R304). -/
def execRsaVerifyhash (c : Fields) (s : State) : Result :=
  attempt Opcode.rsaVerifyhash
    [⟨badDigestLength c.arg.toNat, .hashLengthOutOfBounds⟩,
     ⟨badFrame .payload c || decide (c.len.toNat < c.arg.toNat) ||
       !Config.rsaFits (c.len.toNat - c.arg.toNat), .badLength⟩] s fun s =>
    answer Opcode.rsaVerifyhash
      ((checked .pub (c.payload.drop c.arg.toNat) false s).map (verdict (c.payload.take c.arg.toNat))) s

end Sys2Proof.Machine
end

