-- ==== Sys2Proof/Machine/Keccak.lean ====
section
/-! DEFINITION. The Keccak permutation (40_keccak_permutation.md R120 to R127) and the four commands of unit KP
(R131 to R135). All index arithmetic on `x` and `y` is modulo 5. -/

namespace Sys2Proof.Machine

/-- Lane `A[x,y]`, at index `x + 5y` (R23). -/
def laneAt (A : Lanes) (x y : Nat) : Lane := A[x % 5 + 5 * (y % 5)]'(by omega)

/-- The lanes whose lane `(x,y)` is `f x y`. -/
def lanesOf (f : Nat → Nat → Lane) : Lanes := Vector.ofFn fun i => f (i.val % 5) (i.val / 5)

/-- `C[x]`, the parity of column `x` (R121). -/
def columnParity (A : Lanes) (x : Nat) : Lane :=
  laneAt A x 0 ^^^ laneAt A x 1 ^^^ laneAt A x 2 ^^^ laneAt A x 3 ^^^ laneAt A x 4

/-- θ (R121). -/
def theta (A : Lanes) : Lanes :=
  lanesOf fun x y => laneAt A x y ^^^ (columnParity A (x + 4) ^^^ (columnParity A (x + 1)).rotateLeft 1)

/-- The offsets `RHO` in lane-index order (R122). -/
def rhoOffsets : List Nat :=
  [0, 1, 62, 28, 27] ++ [36, 44, 6, 55, 20] ++ [3, 10, 43, 25, 39] ++ [41, 45, 15, 21, 8] ++ [18, 2, 61, 56, 14]

/-- ρ: rotate each lane to the left by its offset (R122). -/
def rho (A : Lanes) : Lanes := lanesOf fun x y => (laneAt A x y).rotateLeft (rhoOffsets.getD (x + 5 * y) 0)

/-- π (R123): lane `(x,y)` comes from `(x + 3y, x)`, which is where `(x,y) -> (y, 2x + 3y)` sends it from. -/
def pi (A : Lanes) : Lanes := lanesOf fun x y => laneAt A (x + 3 * y) x

/-- χ (R124). -/
def chi (A : Lanes) : Lanes := lanesOf fun x y => laneAt A x y ^^^ (~~~laneAt A (x + 1) y &&& laneAt A (x + 2) y)

/-- The round constants `RC[0..23]` (R125). -/
def roundConstants : List Lane :=
  [0x0000000000000001, 0x0000000000008082, 0x800000000000808A, 0x8000000080008000,
   0x000000000000808B, 0x0000000080000001, 0x8000000080008081, 0x8000000000008009] ++
  [0x000000000000008A, 0x0000000000000088, 0x0000000080008009, 0x000000008000000A,
   0x000000008000808B, 0x800000000000008B, 0x8000000000008089, 0x8000000000008003] ++
  [0x8000000000008002, 0x8000000000000080, 0x000000000000800A, 0x800000008000000A,
   0x8000000080008081, 0x8000000000008080, 0x0000000080000001, 0x8000000080008008]

/-- ι with round index `ir`, 0 to 23 (R125). -/
def iota (A : Lanes) (ir : Nat) : Lanes := A.set 0 (A[0] ^^^ roundConstants.getD ir 0)

/-- One round (R126). -/
def keccakRound (A : Lanes) (ir : Nat) : Lanes := iota (chi (pi (rho (theta A)))) ir

/-- The permutation: 24 rounds, indices ascending from 0 (R127). -/
def keccakF (A : Lanes) : Lanes := (List.range 24).foldl keccakRound A

/-- `KP.LDST` (R131). -/
def execKpLdst (c : Fields) (s : State) : Result :=
  attempt Opcode.kpLdst
    [⟨argNotZero c, .illegalOperand⟩,
     ⟨badFrame .payload c || decide (c.len.toNat ≠ 200), .badLength⟩,
     ⟨s.absorbing, .badPhase⟩] s fun s =>
    .next (respond Opcode.kpLdst [] (s.loadLanes (lanesOfBytes c.payload)))

/-- `KP.RDST` (R132): legal in either phase. -/
def execKpRdst (c : Fields) (s : State) : Result :=
  attempt Opcode.kpRdst
    [⟨argNotZero c, .illegalOperand⟩, ⟨badFrame .noPayload c, .badLength⟩, ⟨!s.kValid, .notReady⟩] s fun s =>
    .next (respond Opcode.kpRdst (s.lanes.toList.flatMap le64inv) s)

/-- `KP.PERM` (R133). -/
def execKpPerm (c : Fields) (s : State) : Result :=
  attempt Opcode.kpPerm
    [⟨argNotZero c, .illegalOperand⟩, ⟨badFrame .noPayload c, .badLength⟩, ⟨s.absorbing, .badPhase⟩,
     ⟨!s.kValid, .notReady⟩] s fun s =>
    .next (respond Opcode.kpPerm [] (s.setLanes (keccakF s.lanes)))

/-- `KP.ROUND` (R134): `ARG` is the round index. -/
def execKpRound (c : Fields) (s : State) : Result :=
  attempt Opcode.kpRound
    [⟨argAbove 23 c, .illegalOperand⟩, ⟨badFrame .noPayload c, .badLength⟩, ⟨s.absorbing, .badPhase⟩,
     ⟨!s.kValid, .notReady⟩] s fun s =>
    .next (respond Opcode.kpRound [] (s.setLanes (keccakRound s.lanes c.arg.toNat)))

end Sys2Proof.Machine
end

