-- ==== Sys2Proof/Machine/Sponge.lean ====
section
/-! DEFINITION. The sponge (41_sha3_shake.md R150 to R158) and the three commands of unit SH (R152, R153, R155). -/

namespace Sys2Proof.Machine

/-- The sponge between two message bytes: the lanes and the number of bytes in the current block (R158). -/
structure Sponge where
  lanes : Lanes
  pos : Nat
deriving DecidableEq, Repr

/-- Absorb one byte; the permutation runs as soon as the block is full (R153, D11). -/
def absorbByte (r : Nat) (t : Sponge) (b : Byte) : Sponge :=
  let A := kstXor t.lanes t.pos b
  if t.pos + 1 = r then ⟨keccakF A, 0⟩ else ⟨A, t.pos + 1⟩

/-- Absorb a byte string (R153). -/
def absorb (r : Nat) (t : Sponge) (m : Bytes) : Sponge := m.foldl (absorbByte r) t

/-- Pad the final block: the suffix byte at `pos`, `0x80` at `r-1` (R157). -/
def padBlock (v : Variant) (t : Sponge) : Lanes :=
  kstXor (kstXor t.lanes t.pos v.suffix) (v.rateBytes - 1) 0x80

/-- The squeeze loop (R155, R158): read up to `r` bytes, permute only where more are wanted. The result is the bytes
and the lanes the last of them were read from. `fuel` bounds the reads; `n + 1` is never too little for `r >= 1`. -/
def squeezeLoop (r : Nat) : Nat → Nat → Lanes → Bytes × Lanes
  | 0, _, A => ([], A)
  | fuel + 1, n, A =>
    let z := kstRead A 0 (min r n)
    if n ≤ r then (z, A)
    else
      let rest := squeezeLoop r fuel (n - r) (keccakF A)
      (z ++ rest.1, rest.2)

/-- Squeeze `n` bytes at rate `r` (R155). -/
def squeeze (r n : Nat) (A : Lanes) : Bytes × Lanes := squeezeLoop r (n + 1) n A

/-- Pad, permute, squeeze: what `SH.FINAL` computes from the open session (R155). -/
def finish (v : Variant) (n : Nat) (t : Sponge) : Bytes × Lanes := squeeze v.rateBytes n (keccakF (padBlock v t))

/-- `SPONGE(v, M, n)`, the whole computation as one pure function (R158). -/
def sponge (v : Variant) (m : Bytes) (n : Nat) : Bytes :=
  (finish v n (absorb v.rateBytes ⟨Vector.replicate 25 0, 0⟩ m)).1

/-- The open session (R25). -/
def State.session (s : State) : Sponge := ⟨s.lanes, s.shPos.toNat⟩

/-- The digest-length check of `SH.FINAL`: a fixed variant is asked for another length than its own (R155, D13). -/
def badDigestRequest (v : Variant) (n : Nat) : Bool :=
  match v.digestBytes with
  | some d => decide (n ≠ d)
  | none => false

/-- Run `effect` on a session whose position is below the rate, as R159 says it always is; fault otherwise (log 11). -/
def withSession (s : State) (effect : State → Result) : Result :=
  if s.shPos.toNat < s.shVar.rateBytes then effect s else .fault .spongePosition

/-- `SH.INIT` (R152): legal in either phase. -/
def execShInit (c : Fields) (s : State) : Result :=
  match Variant.ofCode c.arg.toNat with
  | none => .next (takeError Opcode.shInit .illegalOperand s)
  | some v =>
    attempt Opcode.shInit [⟨badFrame .noPayload c, .badLength⟩] s fun s =>
      .next (respond Opcode.shInit [] (s.openSession v))

/-- `SH.ABSORB` (R153). -/
def execShAbsorb (c : Fields) (s : State) : Result :=
  attempt Opcode.shAbsorb
    [⟨argNotZero c, .illegalOperand⟩, ⟨badFrame .payload c, .badLength⟩, ⟨!s.absorbing, .badPhase⟩] s fun s =>
    withSession s fun s =>
      let t := absorb s.shVar.rateBytes s.session c.payload
      .next (respond Opcode.shAbsorb [] (s.setSponge t.lanes t.pos))

/-- `SH.FINAL` (R155): `LEN` is the number of output bytes. -/
def execShFinal (c : Fields) (s : State) : Result :=
  attempt Opcode.shFinal
    [⟨argNotZero c, .illegalOperand⟩, ⟨badFrame .output c, .badLength⟩, ⟨!s.absorbing, .badPhase⟩,
     ⟨badDigestRequest s.shVar c.len.toNat, .badLength⟩] s fun s =>
    withSession s fun s =>
      let z := finish s.shVar c.len.toNat s.session
      .next (respond Opcode.shFinal z.1 (s.closeSession z.2))

end Sys2Proof.Machine
end

