-- ==== Sys2Proof/Machine/System.lean ====
section
/-! DEFINITION. The housekeeping commands (46_system.md R280 to R282). -/

namespace Sys2Proof.Machine

/-- `SYS.NOP` (R280). -/
def execSysNop (c : Fields) (s : State) : Result :=
  attempt Opcode.sysNop [⟨argNotZero c, .illegalOperand⟩, ⟨badFrame .noPayload c, .badLength⟩] s fun s =>
    .next (respond Opcode.sysNop [] s)

/-- `SYS.RESET` (R281): the reset of the CORE, and a response. -/
def execSysReset (c : Fields) (s : State) : Result :=
  attempt Opcode.sysReset [⟨argNotZero c, .illegalOperand⟩, ⟨badFrame .noPayload c, .badLength⟩] s fun s =>
    .next (respond Opcode.sysReset [] s.resetCore)

/-- `SYS.RDSR` (R282): the CSR that `ARG` numbers, most significant byte first. -/
def execSysRdsr (c : Fields) (s : State) : Result :=
  match Csr.ofNumber c.arg.toNat with
  | none => .next (takeError Opcode.sysRdsr .illegalOperand s)
  | some r =>
    attempt Opcode.sysRdsr [⟨badFrame .noPayload c, .badLength⟩] s fun s =>
      .next (respond Opcode.sysRdsr (wordBytes (s.csr r)) s)

end Sys2Proof.Machine
end

