-- ==== Sys2Proof/Machine/Dispatch.lean ====
section
/-! DEFINITION. The meaning of each command: one arm per constructor of Instr (30_encoding.md R96). -/

namespace Sys2Proof.Machine

def exec (i : Instr) (s : State) : Host.Outcome State Fault Refusal :=
  match i with
  | .sysNop c => Sys2Proof.Machine.execSysNop c s
  | .sysReset c => Sys2Proof.Machine.execSysReset c s
  | .sysRdsr c => Sys2Proof.Machine.execSysRdsr c s
  | .kpLdst c => Sys2Proof.Machine.execKpLdst c s
  | .kpRdst c => Sys2Proof.Machine.execKpRdst c s
  | .kpPerm c => Sys2Proof.Machine.execKpPerm c s
  | .kpRound c => Sys2Proof.Machine.execKpRound c s
  | .shInit c => Sys2Proof.Machine.execShInit c s
  | .shAbsorb c => Sys2Proof.Machine.execShAbsorb c s
  | .shFinal c => Sys2Proof.Machine.execShFinal c s
  | .rsaLd c => Sys2Proof.Machine.execRsaLd c s
  | .rsaModexp c => Sys2Proof.Machine.execRsaModexp c s
  | .rsaEncrypt c => Sys2Proof.Machine.execRsaEncrypt c s
  | .rsaDecrypt c => Sys2Proof.Machine.execRsaDecrypt c s
  | .rsaSign c => Sys2Proof.Machine.execRsaSign c s
  | .rsaVerify c => Sys2Proof.Machine.execRsaVerify c s
  | .rsaSignhash c => Sys2Proof.Machine.execRsaSignhash c s
  | .rsaVerifyhash c => Sys2Proof.Machine.execRsaVerifyhash c s
  | .aesSetkey c => Sys2Proof.Machine.execAesSetkey c s
  | .aesEncblk c => Sys2Proof.Machine.execAesEncblk c s
  | .aesDecblk c => Sys2Proof.Machine.execAesDecblk c s
  | .aesEncrypt c => Sys2Proof.Machine.execAesEncrypt c s
  | .aesDecrypt c => Sys2Proof.Machine.execAesDecrypt c s
  | .rc4Setkey c => Sys2Proof.Machine.execRc4Setkey c s
  | .rc4Ks c => Sys2Proof.Machine.execRc4Ks c s
  | .rc4Xor c => Sys2Proof.Machine.execRc4Xor c s

end Sys2Proof.Machine
end

