-- ==== Sys2Proof/Machine/Step.lean ====
section
/-! DEFINITION. One step of the machine: the next thing the host has delivered (00_scope.md R3, 70 R340). -/

namespace Sys2Proof.Machine

/-- One step. With nothing delivered the CORE waits (log 8); the external reset resets it without a response
(R340; log 9); an illegal opcode is an IllegalCommand error (R97); any other command is run to completion (R3). -/
def step (s : State) : Host.Outcome State Fault Refusal :=
  match fetch s with
  | .idle => .next s
  | .reset t => .next t.resetCore
  | .illegal op t => .next (takeError op .illegalCommand t)
  | .run i t => exec i t

/-- The state with that command as the next thing delivered (log 6, log 12). -/
def State.withFetchWord (s : State) (nbits w : Nat) : State :=
  s.setInbox (.command (tableCommand nbits w) :: s.inbox)

end Sys2Proof.Machine
end

