-- ==== Sys2Proof/Machine/Assembler.lean ====
section
/-! DEFINITION. The host's notation: the assembler syntax of 30_encoding.md R100 and the pseudo-commands of R101.
None of it is CORE state or behaviour; it builds the commands a host delivers. -/

namespace Sys2Proof.Machine

/-! Building commands: `LEN` is never written for format `P`, the assembler sets it (R100). -/

/-- The fields of a format `N` command with operand `arg`. -/
def fieldsN (arg : Nat) : Fields := ⟨BitVec.ofNat 8 arg, 0, []⟩

/-- The fields of a format `P` command: `LEN` is the payload length. -/
def fieldsP (arg : Nat) (p : Bytes) : Fields := ⟨BitVec.ofNat 8 arg, BitVec.ofNat 16 p.length, p⟩

/-- The fields of a format `O` command that wants `n` output bytes. -/
def fieldsO (n : Nat) : Fields := ⟨0, BitVec.ofNat 16 n, []⟩

/-! Pseudo-commands (R101). -/

/-- Cut a message into consecutive pieces of at most 65535 bytes, none of them empty. `fuel` bounds the pieces. -/
def pieces : Nat → Bytes → List Bytes
  | 0, _ => []
  | fuel + 1, m => if m = [] then [] else m.take 65535 :: pieces fuel (m.drop 65535)

/-- The pseudo-commands of R101. -/
inductive Pseudo where
  | hash (variant outlen : Nat) (m : Bytes)
  | sha3_224 (m : Bytes)
  | sha3_256 (m : Bytes)
  | sha3_384 (m : Bytes)
  | sha3_512 (m : Bytes)
  | shake128 (m : Bytes) (n : Nat)
  | shake256 (m : Bytes) (n : Nat)
  | kpClr
  | rsaLdpub (n e : Bytes)
  | rsaLdprv (n d : Bytes)
  | rc4Encrypt (m : Bytes)
  | rc4Decrypt (m : Bytes)
  | aesEcbEnc (key m : Bytes)
  | aesEcbDec (key c : Bytes)
deriving DecidableEq, Repr

/-- The expansion of `SH.HASH variant, outlen, M` (R101); no `SH.ABSORB` where `M` is empty (log 18). -/
def hashCommands (variant outlen : Nat) (m : Bytes) : List Instr :=
  .shInit (fieldsN variant) :: (pieces (m.length + 1) m).map (fun p => .shAbsorb (fieldsP 0 p)) ++
    [.shFinal (fieldsO outlen)]

/-- The expansions of R101. -/
def Pseudo.expand : Pseudo → List Instr
  | .hash v n m => hashCommands v n m
  | .sha3_224 m => hashCommands 0 28 m
  | .sha3_256 m => hashCommands 1 32 m
  | .sha3_384 m => hashCommands 2 48 m
  | .sha3_512 m => hashCommands 3 64 m
  | .shake128 m n => hashCommands 4 n m
  | .shake256 m n => hashCommands 5 n m
  | .kpClr => [.kpLdst (fieldsP 0 (List.replicate 200 0))]
  | .rsaLdpub n e => [.rsaLd (fieldsP 0 n), .rsaLd (fieldsP 1 e)]
  | .rsaLdprv n d => [.rsaLd (fieldsP 2 n), .rsaLd (fieldsP 3 d)]
  | .rc4Encrypt m => [.rc4Xor (fieldsP 0 m)]
  | .rc4Decrypt m => [.rc4Xor (fieldsP 0 m)]
  | .aesEcbEnc key m => [.aesSetkey (fieldsP 0 key), .aesEncrypt (fieldsP 0 m)]
  | .aesEcbDec key c => [.aesSetkey (fieldsP 0 key), .aesDecrypt (fieldsP 0 c)]

/-! Text (R100): one command per line, operands separated by commas, a comment from `;` to the end of the line. -/

/-- The characters of a line. -/
abbrev Chars := List Char

def isBlank (c : Char) : Bool := c = ' ' || c = '\t'

/-- Without blanks at both ends. -/
def trimBlanks (cs : Chars) : Chars := ((cs.dropWhile isBlank).reverse.dropWhile isBlank).reverse

/-- The line up to a `;` that stands outside quotes. -/
def dropComment : Bool → Chars → Chars
  | _, [] => []
  | inText, c :: cs =>
    if c = ';' && !inText then [] else c :: dropComment (if c = '\"' then !inText else inText) cs

/-- The pieces between separators that stand outside quotes; `acc` is the piece so far, reversed. -/
def splitOutside (sep : Char) : Bool → Chars → Chars → List Chars
  | _, acc, [] => [acc.reverse]
  | inText, acc, c :: cs =>
    if c = sep && !inText then acc.reverse :: splitOutside sep inText [] cs
    else splitOutside sep (if c = '\"' then !inText else inText) (c :: acc) cs

/-- The value of a digit in a base up to 16. -/
def digitOf (base : Nat) (c : Char) : Option Nat :=
  let n := c.toNat
  let v := if 48 ≤ n ∧ n ≤ 57 then n - 48 else if 97 ≤ n ∧ n ≤ 102 then n - 87
    else if 65 ≤ n ∧ n ≤ 70 then n - 55 else 99
  if v < base then some v else none

/-- A digit string in a base; the empty string is no number. -/
def numberIn (base : Nat) (cs : Chars) : Option Nat :=
  if cs = [] then none else cs.foldlM (fun acc c => (digitOf base c).map (fun d => acc * base + d)) 0

/-- A numeric operand, decimal or `0x` hexadecimal (R100). -/
def parseNumber : Chars → Option Nat
  | '0' :: 'x' :: cs => numberIn 16 cs
  | cs => numberIn 10 cs

/-- A number or one of the given names. -/
def parseNamed (names : List (String × Nat)) (cs : Chars) : Option Nat :=
  match names.find? (fun p => p.1.toList = cs) with
  | some p => some p.2
  | none => parseNumber cs

def variantNames : List (String × Nat) :=
  [("SHA3-224", 0), ("SHA3-256", 1), ("SHA3-384", 2), ("SHA3-512", 3), ("SHAKE128", 4), ("SHAKE256", 5)]
def registerNames : List (String × Nat) := [("PUB.N", 0), ("PUB.E", 1), ("PRV.N", 2), ("PRV.D", 3)]
def flagNames : List (String × Nat) := [("PAD", 1)]
def modexpFlagNames : List (String × Nat) := [("PAD", 1), ("PRV", 2)]

/-- A sum of numbers and flag names (R100). -/
def parseFlags (names : List (String × Nat)) (cs : Chars) : Option Nat :=
  ((splitOutside '+' false [] cs).mapM (fun t => parseNamed names (trimBlanks t))).map List.sum

/-- Pairs of hexadecimal digits, blanks allowed between them (R100). -/
def hexPairs : Chars → Option Bytes
  | [] => some []
  | [c] => if isBlank c then some [] else none
  | a :: b :: cs =>
    if isBlank a then hexPairs (b :: cs)
    else
      match digitOf 16 a, digitOf 16 b, hexPairs cs with
      | some x, some y, some r => some (BitVec.ofNat 8 (16 * x + y) :: r)
      | _, _, _ => none

/-- The text before the closing quote, which must be the last character. -/
def quotedText (cs : Chars) : Option Chars :=
  match cs.reverse with
  | '\"' :: r => if r.contains '\"' then none else some r.reverse
  | _ => none

/-- The ASCII code of a character (R100, D39). -/
def asciiByte (c : Char) : Option Byte := if c.toNat < 128 then some (BitVec.ofNat 8 c.toNat) else none

/-- A byte-string operand: `hex"…"` or `"…"` (R100). -/
def parseBytes : Chars → Option Bytes
  | 'h' :: 'e' :: 'x' :: '\"' :: cs => (quotedText cs).bind hexPairs
  | '\"' :: cs => (quotedText cs).bind (fun t => t.mapM asciiByte)
  | _ => none

/-- A number that fits a field of `w` bits. -/
def fits (w n : Nat) : Option Nat := if n < 2 ^ w then some n else none

/-- Commands with no operand (R100). -/
def noOperand (build : Fields → Instr) : List Chars → Option (List Instr)
  | [] => some [build (fieldsN 0)]
  | _ => none

/-- Commands with one number in `ARG`. -/
def oneNumber (names : List (String × Nat)) (build : Fields → Instr) : List Chars → Option (List Instr)
  | [a] => ((parseNamed names a).bind (fits 8)).map (fun n => [build (fieldsN n)])
  | _ => none

/-- Commands with one byte string. -/
def oneBytes (build : Fields → Instr) : List Chars → Option (List Instr)
  | [p] => (parseBytes p).map (fun b => [build (fieldsP 0 b)])
  | _ => none

/-- Commands with one output length. -/
def oneLength (build : Fields → Instr) : List Chars → Option (List Instr)
  | [a] => ((parseNumber a).bind (fits 16)).map (fun n => [build (fieldsO n)])
  | _ => none

/-- Commands with a number in `ARG` and a byte string. -/
def numberBytes (names : List (String × Nat)) (build : Fields → Instr) : List Chars → Option (List Instr)
  | [a, p] =>
    match (parseFlags names a).bind (fits 8), parseBytes p with
    | some n, some b => some [build (fieldsP n b)]
    | _, _ => none
  | _ => none

/-- RSA commands whose flags may be omitted when 0 (R100). -/
def flagsBytes (names : List (String × Nat)) (build : Fields → Instr) : List Chars → Option (List Instr)
  | [p] => oneBytes build [p]
  | ops => numberBytes names build ops

/-- `RSA.VERIFYHASH hl, digest, signature`: payload `digest ‖ signature`, `hl = |digest|` (R100). -/
def verifyOperands : List Chars → Option (List Instr)
  | [a, d, g] =>
    match (parseNumber a).bind (fits 8), parseBytes d, parseBytes g with
    | some n, some db, some gb =>
      if db.length = n then some [.rsaVerifyhash (fieldsP n (db ++ gb))] else none
    | _, _, _ => none
  | _ => none

/-- Pseudo-commands over one byte string. -/
def pseudoBytes (build : Bytes → Pseudo) : List Chars → Option (List Instr)
  | [p] => (parseBytes p).map (fun b => (build b).expand)
  | _ => none

/-- Pseudo-commands over two byte strings. -/
def pseudoPair (build : Bytes → Bytes → Pseudo) : List Chars → Option (List Instr)
  | [p, q] =>
    match parseBytes p, parseBytes q with
    | some a, some b => some (build a b).expand
    | _, _ => none
  | _ => none

/-- The SHAKE pseudo-commands: a byte string and an output length. -/
def pseudoShake (build : Bytes → Nat → Pseudo) : List Chars → Option (List Instr)
  | [p, n] =>
    match parseBytes p, (parseNumber n).bind (fits 16) with
    | some a, some k => some (build a k).expand
    | _, _ => none
  | _ => none

/-- `SH.HASH variant, outlen, M`. -/
def pseudoHash : List Chars → Option (List Instr)
  | [v, n, p] =>
    match (parseNamed variantNames v).bind (fits 8), (parseNumber n).bind (fits 16), parseBytes p with
    | some a, some k, some m => some (Pseudo.hash a k m).expand
    | _, _, _ => none
  | _ => none

/-- A mnemonic and how its operands are read. -/
structure SyntaxRow where
  mnemonic : String
  read : List Chars → Option (List Instr)

/-- The operand forms of R100. -/
def commandRows : List SyntaxRow :=
  [⟨"SYS.NOP", noOperand .sysNop⟩, ⟨"SYS.RESET", noOperand .sysReset⟩, ⟨"SYS.RDSR", oneNumber [] .sysRdsr⟩] ++
  [⟨"KP.LDST", oneBytes .kpLdst⟩, ⟨"KP.RDST", noOperand .kpRdst⟩, ⟨"KP.PERM", noOperand .kpPerm⟩,
   ⟨"KP.ROUND", oneNumber [] .kpRound⟩] ++
  [⟨"SH.INIT", oneNumber variantNames .shInit⟩, ⟨"SH.ABSORB", oneBytes .shAbsorb⟩,
   ⟨"SH.FINAL", oneLength .shFinal⟩] ++
  [⟨"RSA.LD", numberBytes registerNames .rsaLd⟩, ⟨"RSA.MODEXP", flagsBytes modexpFlagNames .rsaModexp⟩,
   ⟨"RSA.ENCRYPT", flagsBytes flagNames .rsaEncrypt⟩, ⟨"RSA.DECRYPT", flagsBytes flagNames .rsaDecrypt⟩,
   ⟨"RSA.SIGN", flagsBytes flagNames .rsaSign⟩, ⟨"RSA.VERIFY", flagsBytes flagNames .rsaVerify⟩,
   ⟨"RSA.SIGNHASH", flagsBytes flagNames .rsaSignhash⟩, ⟨"RSA.VERIFYHASH", verifyOperands⟩] ++
  [⟨"AES.SETKEY", oneBytes .aesSetkey⟩, ⟨"AES.ENCBLK", oneBytes .aesEncblk⟩, ⟨"AES.DECBLK", oneBytes .aesDecblk⟩,
   ⟨"AES.ENCRYPT", oneBytes .aesEncrypt⟩, ⟨"AES.DECRYPT", oneBytes .aesDecrypt⟩] ++
  [⟨"RC4.SETKEY", oneBytes .rc4Setkey⟩, ⟨"RC4.KS", oneLength .rc4Ks⟩, ⟨"RC4.XOR", oneBytes .rc4Xor⟩]

/-- The pseudo-commands' operand forms (R101). -/
def pseudoRows : List SyntaxRow :=
  [⟨"SH.HASH", pseudoHash⟩, ⟨"SHA3_224", pseudoBytes .sha3_224⟩, ⟨"SHA3_256", pseudoBytes .sha3_256⟩,
   ⟨"SHA3_384", pseudoBytes .sha3_384⟩, ⟨"SHA3_512", pseudoBytes .sha3_512⟩,
   ⟨"SHAKE128", pseudoShake .shake128⟩, ⟨"SHAKE256", pseudoShake .shake256⟩] ++
  [⟨"KP.CLR", fun ops => if ops = [] then some Pseudo.kpClr.expand else none⟩,
   ⟨"RSA.LDPUB", pseudoPair .rsaLdpub⟩, ⟨"RSA.LDPRV", pseudoPair .rsaLdprv⟩,
   ⟨"RC4.ENCRYPT", pseudoBytes .rc4Encrypt⟩, ⟨"RC4.DECRYPT", pseudoBytes .rc4Decrypt⟩,
   ⟨"AES.ECB.ENC", pseudoPair .aesEcbEnc⟩, ⟨"AES.ECB.DEC", pseudoPair .aesEcbDec⟩]

/-- One line of assembler text: the commands it stands for, none where it is not in the syntax (R100, R101). An empty
line, or a comment alone, stands for no command; a payload the port cannot carry (R90) is none. -/
def assembleLine (line : Chars) : Option (List Instr) :=
  let t := trimBlanks (dropComment false line)
  if t = [] then some []
  else
    let name := t.takeWhile (fun c => !isBlank c)
    let rest := trimBlanks (t.drop name.length)
    let ops := if rest = [] then [] else (splitOutside ',' false [] rest).map trimBlanks
    match (commandRows ++ pseudoRows).find? (fun r => r.mnemonic.toList = name) with
    | none => none
    | some r => (r.read ops).filter (fun is => is.all Instr.deliverable)

end Sys2Proof.Machine
end

