-- ==== Sys2Proof/Safety.lean ====
section
/-! DEFINITION. The terms in which claims about the CORE are made: what a command leaves when it fails or succeeds,
the invariant every run keeps, and when two states look the same to the host. -/

namespace Sys2Proof.Machine

/-- What a failing command leaves: `LASTERR` with the code in bits 7:0 and the opcode in bits 15:8, and a response
with the opcode, the code, `OLEN = 0` and no output; nothing else changes (60_exceptions.md R302, R303). -/
def afterError (op code : Byte) (s : State) : State :=
  { s with lastErr := 0#16 ++ op ++ code, outbox := s.outbox ++ [⟨op ++ code ++ 0#16, []⟩] }

/-- What answering `q` adds: a response with the opcode, `CODE = 0` and `OLEN = |Q|` (30_encoding.md R92). -/
def afterOk (op : Byte) (q : Bytes) (s : State) : State :=
  { s with outbox := s.outbox ++ [⟨op ++ 0x00#8 ++ BitVec.ofNat 16 q.length, q⟩] }

/-- The fields of a command whose payload is `p` and whose `LEN` is the payload's length (format `P`, R93). -/
def withPayload (arg : Byte) (p : Bytes) : Fields := ⟨arg, BitVec.ofNat 16 p.length, p⟩

/-- The instructions of a list, one after the other, each on the state the one before it left (R70). -/
def runAll : List Instr → State → Result
  | [], s => .next s
  | i :: is, s =>
    match exec i s with
    | .next t => runAll is t
    | .fault f => .fault f
    | .refused r => .refused r

/-! The invariant. -/

/-- While a session is open the lanes are valid and the position is inside the block (41_sha3_shake.md R159). -/
def SessionInv (s : State) : Prop :=
  s.shPhase = .absorb → s.kValid = true ∧ s.shPos.toNat < s.shVar.rateBytes

/-- The RSA registers hold naturals below `256^RSA_MAXBYTES` (10_state.md R27). -/
def RsaInv (s : State) : Prop :=
  s.pubN < 256 ^ Config.rsaMaxBytes ∧ s.pubE < 256 ^ Config.rsaMaxBytes ∧
  s.prvN < 256 ^ Config.rsaMaxBytes ∧ s.prvD < 256 ^ Config.rsaMaxBytes

/-- The words of `W` follow the key expansion's recurrence for key size `k` (44_aes.md R225). -/
def FollowsSchedule (k : KeySize) (W : Schedule) : Prop :=
  ∀ i, k.nk ≤ i → i < k.words →
    W[i]?.getD .zero = (W[i - k.nk]?.getD .zero).xor (scheduleTemp k i (W[i - 1]?.getD .zero))

/-- While a key is loaded `AES.W` is a key schedule (R29, R225). -/
def AesInv (s : State) : Prop := s.aesKV = true → FollowsSchedule s.aesNK s.aesW

/-- Each value occurs exactly once in the array (10_state.md R32). -/
def IsPermutation (S : Rc4Array) : Prop := ∀ v : Byte, S.toList.count v = 1

/-- While a key is loaded `RC4.S` is a permutation of 0 to 255 (R32). -/
def Rc4Inv (s : State) : Prop := s.rc4Keyed = true → IsPermutation s.rc4S

/-- `LASTERR` is 0 or an opcode and an error code, bits 31:16 reading 0 (R43). -/
def LastErrInv (s : State) : Prop := s.lastErr = 0 ∨ ∃ (op : Byte) (e : ErrorCode), s.lastErr = 0#16 ++ op ++ e.code

/-- A response's `OLEN` is the length of its output, its `CODE` is one of the eleven results, and an error carries no
output (R92, R301). -/
def ResponseWf (r : Response) : Prop :=
  r.olen.toNat = r.output.length ∧ (∃ c : ResultCode, r.code = c.code) ∧ (r.code ≠ 0 → r.output = [])

/-- Every response in the outbox is well-formed. -/
def OutboxInv (s : State) : Prop := ∀ r ∈ s.outbox, ResponseWf r

/-- The invariant of the CORE: holds after reset, and every step keeps it. -/
structure Inv (s : State) : Prop where
  session : SessionInv s
  rsa : RsaInv s
  aes : AesInv s
  rc4 : Rc4Inv s
  lastErr : LastErrInv s
  outbox : OutboxInv s

/-! What the host can see. -/

/-- Two states look the same to the host: the same flags, `LASTERR`, deliveries and responses, and the same contents
in every register group whose flag says that it holds a value (10_state.md R21). -/
structure SameView (s t : State) : Prop where
  kValid : s.kValid = t.kValid
  lanes : s.kValid = true → s.lanes = t.lanes
  shPhase : s.shPhase = t.shPhase
  session : s.shPhase = .absorb → s.lanes = t.lanes ∧ s.shVar = t.shVar ∧ s.shPos = t.shPos
  pubNV : s.pubNV = t.pubNV
  pubEV : s.pubEV = t.pubEV
  prvNV : s.prvNV = t.prvNV
  prvDV : s.prvDV = t.prvDV
  pubN : s.pubNV = true → s.pubN = t.pubN
  pubE : s.pubEV = true → s.pubE = t.pubE
  prvN : s.prvNV = true → s.prvN = t.prvN
  prvD : s.prvDV = true → s.prvD = t.prvD
  aesKV : s.aesKV = t.aesKV
  aesNK : s.aesKV = true → s.aesNK = t.aesNK
  aesW : s.aesKV = true → ∀ i, i < s.aesNK.words → s.aesW[i]? = t.aesW[i]?
  rc4Keyed : s.rc4Keyed = t.rc4Keyed
  stream : s.rc4Keyed = true → s.stream = t.stream
  lastErr : s.lastErr = t.lastErr
  inbox : s.inbox = t.inbox
  outbox : s.outbox = t.outbox

/-- Two outcomes look the same: both go on in states that look the same, or both stop for the same reason. -/
def SameOutcome : Result → Result → Prop
  | .next s, .next t => SameView s t
  | .fault f, .fault g => f = g
  | .refused r, .refused q => r = q
  | _, _ => False

/-! When a command is accepted. -/

/-- The flags a command needs (70_reset_and_hazards.md R342): stage 4 of R305. -/
def flagsReady (s : State) : Instr → Bool
  | .sysNop _ => true
  | .sysReset _ => true
  | .sysRdsr _ => true
  | .kpLdst _ => s.shPhase = .idle
  | .kpRdst _ => s.kValid
  | .kpPerm _ => s.shPhase = .idle ∧ s.kValid
  | .kpRound _ => s.shPhase = .idle ∧ s.kValid
  | .shInit _ => true
  | .shAbsorb _ => s.shPhase = .absorb
  | .shFinal _ => s.shPhase = .absorb
  | .rsaLd _ => true
  | .rsaModexp c => if c.arg.getLsbD 1 then s.prvNV ∧ s.prvDV else s.pubNV ∧ s.pubEV
  | .rsaEncrypt _ => s.pubNV ∧ s.pubEV
  | .rsaDecrypt _ => s.prvNV ∧ s.prvDV
  | .rsaSign _ => s.prvNV ∧ s.prvDV
  | .rsaVerify _ => s.pubNV ∧ s.pubEV
  | .rsaSignhash _ => s.prvNV ∧ s.prvDV
  | .rsaVerifyhash _ => s.pubNV ∧ s.pubEV
  | .aesSetkey _ => true
  | .aesEncblk _ => s.aesKV
  | .aesDecblk _ => s.aesKV
  | .aesEncrypt _ => s.aesKV
  | .aesDecrypt _ => s.aesKV
  | .rc4Setkey _ => true
  | .rc4Ks _ => s.rc4Keyed
  | .rc4Xor _ => s.rc4Keyed

/-- What a command needs of register and payload values: stage 5 of R305. -/
def dataReady (s : State) : Instr → Bool
  | .shFinal c => s.shVar.digestBytes = none ∨ s.shVar.digestBytes = some c.len.toNat
  | .rsaModexp c => (if c.arg.getLsbD 1 then s.prvN else s.pubN) ≠ 0
  | .rsaEncrypt c => os2ip c.payload < s.pubN
  | .rsaDecrypt c => os2ip c.payload < s.prvN
  | .rsaSign c => os2ip c.payload < s.prvN
  | .rsaVerify c => os2ip c.payload < s.pubN
  | .rsaSignhash c => os2ip c.payload < s.prvN
  | .rsaVerifyhash c => os2ip (c.payload.drop c.arg.toNat) < s.pubN
  | .aesDecrypt c => (pkcs7Unpad (ecb s.decBlock c.payload)).isSome
  | .sysNop _ => true
  | .sysReset _ => true
  | .sysRdsr _ => true
  | .kpLdst _ => true
  | .kpRdst _ => true
  | .kpPerm _ => true
  | .kpRound _ => true
  | .shInit _ => true
  | .shAbsorb _ => true
  | .rsaLd _ => true
  | .aesSetkey _ => true
  | .aesEncblk _ => true
  | .aesDecblk _ => true
  | .aesEncrypt _ => true
  | .rc4Setkey _ => true
  | .rc4Ks _ => true
  | .rc4Xor _ => true

/-- The "Output bytes" column of R96: the lengths a successful answer may have (R183 for the RSA commands). -/
def outputLegal (n : Nat) : Instr → Prop
  | .sysNop _ => n = 0
  | .sysReset _ => n = 0
  | .sysRdsr _ => n = 4
  | .kpLdst _ => n = 0
  | .kpRdst _ => n = 200
  | .kpPerm _ => n = 0
  | .kpRound _ => n = 0
  | .shInit _ => n = 0
  | .shAbsorb _ => n = 0
  | .shFinal c => n = c.len.toNat
  | .rsaLd _ => n = 0
  | .rsaModexp _ => 1 ≤ n ∧ n ≤ Config.rsaMaxBytes
  | .rsaEncrypt _ => 1 ≤ n ∧ n ≤ Config.rsaMaxBytes
  | .rsaDecrypt _ => 1 ≤ n ∧ n ≤ Config.rsaMaxBytes
  | .rsaSign _ => 1 ≤ n ∧ n ≤ Config.rsaMaxBytes
  | .rsaVerify _ => 1 ≤ n ∧ n ≤ Config.rsaMaxBytes
  | .rsaSignhash _ => 1 ≤ n ∧ n ≤ Config.rsaMaxBytes
  | .rsaVerifyhash _ => n = 1
  | .aesSetkey _ => n = 0
  | .aesEncblk _ => n = 16
  | .aesDecblk _ => n = 16
  | .aesEncrypt c => n = 16 * (c.len.toNat / 16 + 1)
  | .aesDecrypt c => c.len.toNat - 16 ≤ n ∧ n ≤ c.len.toNat - 1
  | .rc4Setkey _ => n = 0
  | .rc4Ks c => n = c.len.toNat
  | .rc4Xor c => n = c.len.toNat

/-! What single rules leave. -/

/-- What a reset leaves of `s`: the eight flags and `LASTERR` are 0 and the CSRs read 0; deliveries and responses are
the host's and stay (10_state.md R47, 70_reset_and_hazards.md R340). -/
structure ResetFrom (s t : State) : Prop where
  kValid : t.kValid = false
  shPhase : t.shPhase = .idle
  pubNV : t.pubNV = false
  pubEV : t.pubEV = false
  prvNV : t.prvNV = false
  prvDV : t.prvDV = false
  aesKV : t.aesKV = false
  rc4Keyed : t.rc4Keyed = false
  lastErr : t.lastErr = 0
  status : t.status = 0
  shCfg : t.shCfg = 0
  rc4Ij : t.rc4Ij = 0
  inbox : t.inbox = s.inbox
  outbox : t.outbox = s.outbox

/-- `RSAOUT` of `b^e mod n` with modulus 1 giving 0 (43_rsa_modexp.md R181, R183). -/
def powerOut (b e n : Nat) (pad : Bool) : Bytes :=
  let v := if n = 1 then 0 else b ^ e % n
  i2osp v (if pad then bytelen n else bytelen v)

/-- The end of a `CHECKED` operation of opcode `op` on modulus `n` and exponent `e`, whose input is `d` and whose
answer to the result `q` is `ans q` (R186). -/
def checkedEnd (op : Byte) (loaded : Bool) (n e d : Nat) (pad : Bool) (ans : Bytes → Bytes) (s : State) : State :=
  if loaded = false then afterError op 0x04 s
  else if n ≤ d then afterError op 0x10 s
  else afterOk op (ans (powerOut d e n pad)) s

/-- The stream after `n` generation steps (45_rc4.md R263). -/
def streamAfter (n : Nat) (t : Rc4Stream) : Rc4Stream := (fun u => (prgaStep u).1)^[n] t

/-- The first `n` key-stream bytes of a stream (R263, R264). -/
def streamBytes (n : Nat) (t : Rc4Stream) : Bytes := (List.range n).map fun k => (prgaStep (streamAfter k t)).2

/-- Block `j` of a byte string: its bytes `16j .. 16j+15` (44_aes.md R239). -/
def blockAt (p : Bytes) (j : Nat) : Block := Vector.ofFn fun k => p.getD (16 * j + k.val) 0

end Sys2Proof.Machine
end

