-- ==== Sys2Proof/Certificates/Slice0/Obligations.lean ====
section
/-! DEFINITION. The statements for the provers. Each docstring names the rule of spec/ a statement formalises; where a
clause is the model's choice the docstring names the log entry. -/

open Sys2Proof Sys2Proof.Machine

/-! ## Encoding and decoding (30_encoding.md) -/

/-- Decoding the bytes of any instruction gives the instruction back (R91, R94, R96). -/
def Obligations.DecodeInvertsEncode : Prop :=
  ∀ i : Instr, decode (encodeBytes i) = .ok i

/-- Each byte sequence that decodes is the encoding of what it decodes to, so no bit of it is dropped (R91, R94). -/
def Obligations.EncodeInvertsDecode : Prop :=
  ∀ (bs : Bytes) (i : Instr), decode bs = .ok i → encodeBytes i = bs

/-- Commands as the spec prints them, one or more of each unit (R94, R134, R152, R184, R187, R236, R262, R264, R282). -/
def Obligations.SpecEncodingsDecode : Prop :=
  decode [0x00, 0x00, 0x00, 0x00] = .ok (.sysNop ⟨0, 0, []⟩) ∧
  decode [0x02, 0x05, 0x00, 0x00] = .ok (.sysRdsr ⟨5, 0, []⟩) ∧
  decode [0x13, 0x01, 0x00, 0x00] = .ok (.kpRound ⟨1, 0, []⟩) ∧
  decode [0x20, 0x01, 0x00, 0x00] = .ok (.shInit ⟨1, 0, []⟩) ∧
  decode [0x21, 0x00, 0x00, 0x03, 0x61, 0x62, 0x63] = .ok (.shAbsorb ⟨0, 3, [0x61, 0x62, 0x63]⟩) ∧
  decode [0x22, 0x00, 0x00, 0x20] = .ok (.shFinal ⟨0, 32, []⟩) ∧
  decode [0x30, 0x00, 0x00, 0x02, 0x0c, 0xa1] = .ok (.rsaLd ⟨0, 2, [0x0c, 0xa1]⟩) ∧
  decode [0x32, 0x00, 0x00, 0x01, 0x41] = .ok (.rsaEncrypt ⟨0, 1, [0x41]⟩) ∧
  decode [0x43, 0x00, 0x00, 0x00] = .ok (.aesEncrypt ⟨0, 0, []⟩) ∧
  decode [0x50, 0x00, 0x00, 0x03, 0x4b, 0x65, 0x79] = .ok (.rc4Setkey ⟨0, 3, [0x4b, 0x65, 0x79]⟩) ∧
  decode [0x51, 0x00, 0x00, 0x10] = .ok (.rc4Ks ⟨0, 16, []⟩)

/-- The illegal opcodes are the ranges of R97, and a command with one of them is answered `IllegalCommand` whatever its
`ARG`, `LEN` and payload, with no state but `LASTERR` changed (R97, R302, R305 stage 1). The inbox holds what the host
has delivered (log 6). -/
def Obligations.IllegalOpcodesAnswerIllegalCommand : Prop :=
  let illegal (op : Byte) : Prop :=
    (0x03 ≤ op ∧ op ≤ 0x0f) ∨ (0x14 ≤ op ∧ op ≤ 0x1f) ∨ (0x23 ≤ op ∧ op ≤ 0x2f) ∨
    (0x38 ≤ op ∧ op ≤ 0x3f) ∨ (0x45 ≤ op ∧ op ≤ 0x4f) ∨ 0x53 ≤ op
  (∀ c : Command, decodeCommand c = none ↔ illegal c.op) ∧
  (∀ (s : State) (c : Command) (rest : List HostEvent), s.inbox = .command c :: rest → illegal c.op →
    step s = .next (afterError c.op 0x01 { s with inbox := rest }))

/-- A reader of an unframed stream takes exactly the bytes of a command, told from its header alone: `LEN` payload bytes
for format `P` and none for `N` and `O`, whatever their `LEN`; an illegal opcode takes its header only (R99). -/
def Obligations.UnframedStreamIsCut : Prop :=
  (∀ (i : Instr) (rest : Bytes),
    i.fields.payload.length = (match i.format with
      | .payload => i.fields.len.toNat
      | .noPayload => 0
      | .output => 0) →
    nextCommand (encodeBytes i ++ rest) = some (encode i, rest)) ∧
  (∀ (h : BitVec 32) (rest : Bytes), decodeCommand ⟨h, []⟩ = none →
    nextCommand (wordBytes h ++ rest) = some (⟨h, []⟩, rest))

/-! ## The step (00_scope.md R3, 70_reset_and_hazards.md R340) -/

/-- When the next delivered command's bytes decode to an instruction, the step is that instruction's meaning, on the
state without the delivery (R3, R70). With nothing delivered the CORE waits: the model's form of it is log 8. -/
def Obligations.StepRunsDecodedCommand : Prop :=
  (∀ (s : State) (c : Command) (rest : List HostEvent) (i : Instr),
    s.inbox = .command c :: rest → decode c.toBytes = .ok i → step s = exec i { s with inbox := rest }) ∧
  (∀ s : State, s.inbox = [] → step s = .next s)

/-! ## The order of checks (60_exceptions.md R305) -/

/-- Stage 2: an illegal `ARG` is answered `IllegalOperand`, by `RSA.VERIFYHASH` `HashLengthOutOfBounds`, whatever the
length, the flags and the data (R95, R98, R305). -/
def Obligations.IllegalArgumentsAreRefused : Prop :=
  ∀ (i : Instr) (s : State), i.argLegal = false →
    exec i s = .next (afterError i.op (if i.op = 0x37 then 0x11 else 0x02) s)

/-- Stage 3: with a legal `ARG`, a payload that does not fit the format or a `LEN` outside the command's limits is
answered `BadLength`, or the specific error of the two `SETKEY` commands and `RSA.SIGNHASH` where only the limit is
broken, whatever the flags and the data (R93, R98, R305). -/
def Obligations.IllegalLengthsAreRefused : Prop :=
  ∀ (i : Instr) (s : State), i.argLegal = true → (i.framed && i.lenLegal) = false →
    exec i s = .next (afterError i.op
      (if i.framed = false then 0x03
       else if i.op = 0x40 ∨ i.op = 0x50 then 0x12
       else if i.op = 0x36 then 0x11
       else 0x03) s)

/-- Stage 4: with stages 2 and 3 passed, a command whose flags are not as R342 wants them is answered `BadPhase` where
the sponge phase is wrong and else `NotReady` (R301, R305, R342). -/
def Obligations.UnreadyCommandsAreRefused : Prop :=
  ∀ (i : Instr) (s : State), i.argLegal = true → i.framed = true → i.lenLegal = true → flagsReady s i = false →
    exec i s = .next (afterError i.op
      (if i.op = 0x21 ∨ i.op = 0x22 then 0x05
       else if (i.op = 0x10 ∨ i.op = 0x12 ∨ i.op = 0x13) ∧ s.shPhase = .absorb then 0x05
       else 0x04) s)

/-- Stage 5: with stages 2 to 4 passed, the checks on data: `SH.FINAL` asked for a wrong digest length answers
`BadLength`, `RSA.MODEXP` with modulus 0 `ModulusZero`, an RSA input not below the modulus `DataTooLarge`, a bad padding
`BadPadding` (R305). -/
def Obligations.UnfitDataIsRefused : Prop :=
  ∀ (i : Instr) (s : State), i.argLegal = true → i.framed = true → i.lenLegal = true → flagsReady s i = true →
    dataReady s i = false →
    exec i s = .next (afterError i.op
      (if i.op = 0x22 then 0x03 else if i.op = 0x31 then 0x14 else if i.op = 0x44 then 0x13 else 0x10) s)

/-- EVERY COMMAND COMPLETES: for each of the 26 commands, one that passes its checks has its own effect, answers `OK`
with as many bytes as R96 says, and leaves `LASTERR` as it was, `SYS.RESET` 0 (R3, R92, R96, R43). The two invariants
rule out states no run reaches. -/
def Obligations.AcceptedCommandsComplete : Prop :=
  ∀ (i : Instr) (s : State), SessionInv s → RsaInv s →
    i.argLegal = true → i.framed = true → i.lenLegal = true → flagsReady s i = true → dataReady s i = true →
    ∃ (t : State) (q : Bytes), exec i s = .next t ∧
      t.outbox = s.outbox ++ [⟨i.op ++ 0x00#8 ++ BitVec.ofNat 16 q.length, q⟩] ∧
      q.length ≤ 65535 ∧ outputLegal q.length i ∧
      t.lastErr = (if i.op = 0x01 then 0 else s.lastErr)

/-! ## SYS (46_system.md) and the status registers (10_state.md) -/

/-- R280, whole. -/
def Obligations.SysNopDoesNothing : Prop :=
  ∀ (c : Fields) (s : State), exec (.sysNop c) s = .next
    (if c.arg ≠ 0 then afterError 0x00 0x02 s
     else if c.len ≠ 0 ∨ c.payload ≠ [] then afterError 0x00 0x03 s
     else afterOk 0x00 [] s)

/-- R282: the CSR that `ARG` numbers (R41, R44), most significant byte first; nothing else changes. -/
def Obligations.SysRdsrReadsRegister : Prop :=
  ∀ (c : Fields) (s : State), exec (.sysRdsr c) s = .next
    (let v : BitVec 32 :=
       if c.arg = 0 then 0x53415801 else if c.arg = 1 then s.status else if c.arg = 2 then s.lastErr
       else if c.arg = 3 then s.shCfg else s.rc4Ij
     if 4 < c.arg then afterError 0x02 0x02 s
     else if c.len ≠ 0 ∨ c.payload ≠ [] then afterError 0x02 0x03 s
     else afterOk 0x02 [v.extractLsb' 24 8, v.extractLsb' 16 8, v.extractLsb' 8 8, v.extractLsb' 0 8] s)

/-- Every field of `STATUS`, reserved bits included (R42). -/
def Obligations.StatusFields : Prop :=
  ∀ s : State,
    s.status.extractLsb' 0 1 = BitVec.ofBool s.kValid ∧
    s.status.extractLsb' 1 1 = (if s.shPhase = .absorb then 1 else 0) ∧
    s.status.extractLsb' 2 3 = (if s.shPhase = .absorb then BitVec.ofNat 3 s.shVar.code else 0) ∧
    s.status.extractLsb' 5 3 = 0 ∧
    s.status.extractLsb' 8 1 = BitVec.ofBool s.pubNV ∧
    s.status.extractLsb' 9 1 = BitVec.ofBool s.pubEV ∧
    s.status.extractLsb' 10 1 = BitVec.ofBool s.prvNV ∧
    s.status.extractLsb' 11 1 = BitVec.ofBool s.prvDV ∧
    s.status.extractLsb' 12 1 = BitVec.ofBool s.aesKV ∧
    s.status.extractLsb' 13 2 = (if s.aesKV = false then 0 else if s.aesNK = .nk4 then 1
      else if s.aesNK = .nk6 then 2 else 3) ∧
    s.status.extractLsb' 15 1 = 0 ∧
    s.status.extractLsb' 16 1 = BitVec.ofBool s.rc4Keyed ∧
    s.status.extractLsb' 17 15 = 0

/-- Every field of `SH_CFG` (R45) and of `RC4_IJ` (R46). -/
def Obligations.SpongeAndStreamRegisters : Prop :=
  ∀ s : State,
    (s.shPhase = .idle → s.shCfg = 0) ∧
    (s.shPhase = .absorb →
      s.shCfg.extractLsb' 0 8 = s.shPos ∧
      s.shCfg.extractLsb' 8 8 = BitVec.ofNat 8 s.shVar.rateBytes ∧
      s.shCfg.extractLsb' 16 8 = (match s.shVar with
        | .sha3_224 => 28 | .sha3_256 => 32 | .sha3_384 => 48 | .sha3_512 => 64 | .shake128 => 0 | .shake256 => 0) ∧
      s.shCfg.extractLsb' 24 8 = (match s.shVar with
        | .sha3_224 => 0x06 | .sha3_256 => 0x06 | .sha3_384 => 0x06 | .sha3_512 => 0x06
        | .shake128 => 0x1f | .shake256 => 0x1f)) ∧
    (s.rc4Keyed = false → s.rc4Ij = 0) ∧
    (s.rc4Keyed = true → s.rc4Ij.extractLsb' 0 8 = s.rc4I ∧ s.rc4Ij.extractLsb' 8 8 = s.rc4J ∧
      s.rc4Ij.extractLsb' 16 16 = 0)

/-- `SYS.RESET` (R281) and the external reset (R340) leave the eight flags and `LASTERR` 0 and the status registers
reading 0; the command responds, the external reset does not. That the external reset comes as a delivery is log 9. -/
def Obligations.ResetsClearFlags : Prop :=
  (∀ (c : Fields) (s : State),
    (c.arg ≠ 0 → exec (.sysReset c) s = .next (afterError 0x01 0x02 s)) ∧
    (c.arg = 0 → (c.len ≠ 0 ∨ c.payload ≠ []) → exec (.sysReset c) s = .next (afterError 0x01 0x03 s)) ∧
    (c.arg = 0 → c.len = 0 → c.payload = [] →
      ∃ t, exec (.sysReset c) s = .next (afterOk 0x01 [] t) ∧ ResetFrom s t)) ∧
  (∀ (s : State) (rest : List HostEvent), s.inbox = .reset :: rest →
    ∃ t, step s = .next t ∧ ResetFrom { s with inbox := rest } t)

/-- `SYS.RESET` and the external reset leave a state that looks the same as the model's state after power-on, but for
what is delivered and answered (R281, R340). -/
def Obligations.ResetsGiveTheResetView : Prop :=
  (∀ (c : Fields) (s : State), c.arg = 0 → c.len = 0 → c.payload = [] →
    ∃ t, exec (.sysReset c) s = .next (afterOk 0x01 [] t) ∧
      SameView t { State.reset with inbox := s.inbox, outbox := s.outbox }) ∧
  (∀ (s : State) (rest : List HostEvent), s.inbox = .reset :: rest →
    ∃ t, step s = .next t ∧ SameView t { State.reset with inbox := rest, outbox := s.outbox })

/-! ## KP (40_keccak_permutation.md) -/

/-- R131: lane `i` becomes the little-endian value of payload bytes `8i .. 8i+7`. -/
def Obligations.KpLdstLoadsLanes : Prop :=
  ∀ (c : Fields) (s : State), exec (.kpLdst c) s = .next
    (if c.arg ≠ 0 then afterError 0x10 0x02 s
     else if c.payload.length ≠ c.len.toNat ∨ c.len ≠ 200 then afterError 0x10 0x03 s
     else if s.shPhase = .absorb then afterError 0x10 0x05 s
     else afterOk 0x10 [] { s with
       kValid := true
       lanes := Vector.ofFn fun i =>
         BitVec.ofNat 64 (∑ k ∈ Finset.range 8, (c.payload.getD (8 * i.val + k) 0).toNat * 256 ^ k) })

/-- R132: the 200 bytes of the lanes, lanes in index order, each least significant byte first. -/
def Obligations.KpRdstReadsLanes : Prop :=
  ∀ (c : Fields) (s : State), exec (.kpRdst c) s = .next
    (if c.arg ≠ 0 then afterError 0x11 0x02 s
     else if c.len ≠ 0 ∨ c.payload ≠ [] then afterError 0x11 0x03 s
     else if s.kValid = false then afterError 0x11 0x04 s
     else afterOk 0x11
       ((List.range 200).map fun k => (s.lanes.toList.getD (k / 8) 0).extractLsb' (8 * (k % 8)) 8) s)

/-- R133 and R134, with the round written out (R126, R127), and that the 24 rounds in ascending order are one
permutation (R134). -/
def Obligations.KpPermAndRoundPermute : Prop :=
  let rnd (A : Lanes) (ir : Nat) : Lanes := iota (chi (pi (rho (theta A)))) ir
  (∀ (c : Fields) (s : State), exec (.kpPerm c) s = .next
    (if c.arg ≠ 0 then afterError 0x12 0x02 s
     else if c.len ≠ 0 ∨ c.payload ≠ [] then afterError 0x12 0x03 s
     else if s.shPhase = .absorb then afterError 0x12 0x05 s
     else if s.kValid = false then afterError 0x12 0x04 s
     else afterOk 0x12 [] { s with lanes := (List.range 24).foldl rnd s.lanes })) ∧
  (∀ (c : Fields) (s : State), exec (.kpRound c) s = .next
    (if 23 < c.arg then afterError 0x13 0x02 s
     else if c.len ≠ 0 ∨ c.payload ≠ [] then afterError 0x13 0x03 s
     else if s.shPhase = .absorb then afterError 0x13 0x05 s
     else if s.kValid = false then afterError 0x13 0x04 s
     else afterOk 0x13 [] { s with lanes := rnd s.lanes c.arg.toNat })) ∧
  (∀ s : State, s.shPhase = .idle → s.kValid = true → ∃ t u,
    runAll ((List.range 24).map fun ir => .kpRound (fieldsN ir)) s = .next t ∧
    exec (.kpPerm (fieldsN 0)) s = .next u ∧ t = { u with outbox := t.outbox })

/-- What `KP.LDST` loads `KP.RDST` answers (R131, R132). -/
def Obligations.KpLdstThenRdstAnswersPayload : Prop :=
  ∀ (s : State) (p : Bytes), s.shPhase = .idle → p.length = 200 → ∃ t u,
    exec (.kpLdst (withPayload 0 p)) s = .next t ∧ exec (.kpRdst (fieldsN 0)) t = .next u ∧
    u.outbox = t.outbox ++ [⟨0x110000c8, p⟩]

/-- The five step mappings by their formulas, the tables and their generating rules (R121 to R125), and the round
(R126). Lane `(x,y)` is `laneAt A x y`. -/
def Obligations.KeccakStepFormulas : Prop :=
  let parity (A : Lanes) (x : Nat) : Lane :=
    laneAt A x 0 ^^^ laneAt A x 1 ^^^ laneAt A x 2 ^^^ laneAt A x 3 ^^^ laneAt A x 4
  let rhoTable : List (List Nat) :=
    [[0, 36, 3, 41, 18], [1, 44, 10, 45, 2], [62, 6, 43, 15, 61], [28, 55, 25, 21, 56], [27, 20, 39, 8, 14]]
  let start : Nat × Nat := (1, 0)
  let place (t : Nat) : Nat × Nat := (fun p : Nat × Nat => (p.2, (2 * p.1 + 3 * p.2) % 5))^[t] start
  let piSource : List Nat :=
    [0, 6, 12, 18, 24, 3, 9, 10, 16, 22, 1, 7, 13, 19, 20, 4, 5, 11, 17, 23, 2, 8, 14, 15, 21]
  let lfsr (R : List Bool) : List Bool :=
    let b := R.getD 7 false
    [b, R.getD 0 false, R.getD 1 false, R.getD 2 false, (R.getD 3 false).xor b, (R.getD 4 false).xor b,
     (R.getD 5 false).xor b, R.getD 6 false]
  let rc (t : Nat) : Bool := (lfsr^[t % 255] [true, false, false, false, false, false, false, false]).getD 0 false
  (∀ (A : Lanes) (x y : Nat), x < 5 → y < 5 →
    laneAt A x y = A.toList.getD (x + 5 * y) 0 ∧
    laneAt (theta A) x y =
      laneAt A x y ^^^ (parity A ((x + 4) % 5) ^^^ (parity A ((x + 1) % 5)).rotateLeft 1) ∧
    laneAt (rho A) x y = (laneAt A x y).rotateLeft ((rhoTable.getD x []).getD y 0) ∧
    laneAt (pi A) y ((2 * x + 3 * y) % 5) = laneAt A x y ∧
    laneAt (pi A) x y = A.toList.getD (piSource.getD (x + 5 * y) 0) 0 ∧
    laneAt (chi A) x y = laneAt A x y ^^^ (~~~laneAt A ((x + 1) % 5) y &&& laneAt A ((x + 2) % 5) y)) ∧
  (∀ t, t < 24 → (rhoTable.getD (place t).1 []).getD (place t).2 0 = (t + 1) * (t + 2) / 2 % 64) ∧
  (∀ (A : Lanes) (ir x y : Nat), ir < 24 → x < 5 → y < 5 →
    laneAt (iota A ir) x y = if x = 0 ∧ y = 0 then laneAt A 0 0 ^^^ roundConstants.getD ir 0 else laneAt A x y) ∧
  (∀ ir k, ir < 24 → k < 64 → (roundConstants.getD ir 0).getLsbD k =
    (List.range 7).any fun j => decide (k = 2 ^ j - 1) && rc (j + 7 * ir)) ∧
  (∀ (A : Lanes) (ir : Nat), keccakRound A ir = iota (chi (pi (rho (theta A)))) ir)

/-- Each step mapping, each round and the permutation is a bijection on 1600-bit states (R128 (a)). -/
def Obligations.KeccakIsAPermutation : Prop :=
  Function.Bijective theta ∧ Function.Bijective rho ∧ Function.Bijective pi ∧ Function.Bijective chi ∧
  (∀ ir, Function.Bijective fun A => iota A ir) ∧ (∀ ir, Function.Bijective fun A => keccakRound A ir) ∧
  Function.Bijective keccakF

/-! ## SH (41_sha3_shake.md) -/

/-- The variant table (R151), with the codes. -/
def Obligations.VariantTable : Prop :=
  (∀ v : Variant, Variant.ofCode v.code = some v ∧ v.rateBytes = (1600 - v.capacity) / 8) ∧
  Variant.ofCode 6 = none ∧
  [Variant.sha3_224, .sha3_256, .sha3_384, .sha3_512, .shake128, .shake256].map
      (fun v => (v.code, v.capacity, v.rateBytes, v.suffix.toNat, v.digestBytes)) =
    [(0, 448, 144, 0x06, some 28), (1, 512, 136, 0x06, some 32), (2, 768, 104, 0x06, some 48),
     (3, 1024, 72, 0x06, some 64), (4, 256, 168, 0x1f, none), (5, 512, 136, 0x1f, none)]

/-- `SH.INIT` opens a session of the variant `ARG` names on all-zero lanes, in either phase (R152). -/
def Obligations.ShInitOpensSession : Prop :=
  ∀ (c : Fields) (s : State),
    (5 < c.arg → exec (.shInit c) s = .next (afterError 0x20 0x02 s)) ∧
    (∀ v : Variant, v.code = c.arg.toNat → exec (.shInit c) s = .next
      (if c.len ≠ 0 ∨ c.payload ≠ [] then afterError 0x20 0x03 s
       else afterOk 0x20 [] { s with
         lanes := Vector.replicate 25 0, kValid := true, shPhase := .absorb, shVar := v, shPos := 0 }))

/-- The byte view `KST` of the lanes (R62): byte `k` is bits `8*(k mod 8)+7 : 8*(k mod 8)` of lane `k div 8`, lane `i` is
the little-endian value of bytes `8i .. 8i+7`, and the 200 bytes are the lanes in index order, each least significant byte
first (R63, R132). XORing `b` into byte `k` XORs `b << 8*(k mod 8)` into lane `k div 8`, and changes that byte and no
other. -/
def Obligations.KstXorChangesOneByte : Prop :=
  (∀ (A : Lanes) (k : Nat), k < 200 →
    kstByte A k = (A.toList.getD (k / 8) 0).extractLsb' (8 * (k % 8)) 8) ∧
  (∀ (A : Lanes) (i : Nat), i < 25 →
    (A.toList.getD i 0).toNat = ∑ k ∈ Finset.range 8, (kstByte A (8 * i + k)).toNat * 256 ^ k) ∧
  (∀ (A : Lanes) (a n : Nat), a + n ≤ 200 → kstRead A a n = ((A.toList.flatMap le64inv).drop a).take n) ∧
  (∀ (A : Lanes) (k i : Nat) (b : Byte), k < 200 → i < 25 →
    (kstXor A k b).toList.getD i 0 =
      if i = k / 8 then A.toList.getD i 0 ^^^ (b.setWidth 64 <<< (8 * (k % 8))) else A.toList.getD i 0) ∧
  (∀ (A : Lanes) (k j : Nat) (b : Byte), k < 200 → j < 200 →
    kstByte (kstXor A k b) j = if j = k then kstByte A k ^^^ b else kstByte A j)

/-- R153: each payload byte is XORed in at `SH.POS`, and the permutation runs as soon as the block is full. -/
def Obligations.ShAbsorbAbsorbs : Prop :=
  ∀ (c : Fields) (s : State), SessionInv s → exec (.shAbsorb c) s = .next
    (let r := s.shVar.rateBytes
     let next (t : Sponge) (b : Byte) : Sponge :=
       if t.pos + 1 = r then ⟨keccakF (kstXor t.lanes t.pos b), 0⟩ else ⟨kstXor t.lanes t.pos b, t.pos + 1⟩
     let t := c.payload.foldl next ⟨s.lanes, s.shPos.toNat⟩
     if c.arg ≠ 0 then afterError 0x21 0x02 s
     else if c.payload.length ≠ c.len.toNat then afterError 0x21 0x03 s
     else if s.shPhase = .idle then afterError 0x21 0x05 s
     else afterOk 0x21 [] { s with lanes := t.lanes, shPos := BitVec.ofNat 8 t.pos })

/-- R154: absorbing a message in two pieces leaves what absorbing it whole leaves. -/
def Obligations.AbsorbIgnoresCuts : Prop :=
  ∀ (s : State) (x y : Bytes), SessionInv s → s.shPhase = .absorb → (x ++ y).length ≤ 65535 → ∃ t u v,
    exec (.shAbsorb (withPayload 0 x)) s = .next t ∧ exec (.shAbsorb (withPayload 0 y)) t = .next u ∧
    exec (.shAbsorb (withPayload 0 (x ++ y))) s = .next v ∧ u = { v with outbox := u.outbox }

/-- R155, R156: `SH.FINAL` pads, permutes, and answers `LEN` bytes, each rate's worth from the next permutation, with no
permutation after the last read; the session is closed. What `SH.VAR` and `SH.POS` hold then is free (log 4). -/
def Obligations.ShFinalPadsAndSqueezes : Prop :=
  ∀ (c : Fields) (s : State), SessionInv s → ∃ (v : Variant) (p : BitVec 8) (d : Nat),
    exec (.shFinal c) s = .next
      (let r := s.shVar.rateBytes
       let n := c.len.toNat
       let first := keccakF (kstXor (kstXor s.lanes s.shPos.toNat s.shVar.suffix) (r - 1) 0x80)
       if c.arg ≠ 0 then afterError 0x22 0x02 s
       else if c.payload ≠ [] then afterError 0x22 0x03 s
       else if s.shPhase = .idle then afterError 0x22 0x05 s
       else if s.shVar.digestBytes ≠ none ∧ s.shVar.digestBytes ≠ some n then afterError 0x22 0x03 s
       else afterOk 0x22 ((List.range n).map fun k => kstByte (keccakF^[k / r] first) (k % r)) { s with
         lanes := keccakF^[(n - 1) / r] first, shPhase := .idle, shVar := v, shPos := p, freeCount := d })

/-- The commands of `SH.HASH` (R101) compute the sponge function of R158, for every variant, message and legal output
length, from any state: `SH.INIT` may be issued at any time. For the empty message the expansion has no `SH.ABSORB`, one
of the two forms R101 allows and the model's choice (log 18). -/
def Obligations.HashCommandsComputeSponge : Prop :=
  ∀ (s : State) (v : Variant) (m : Bytes) (n : Nat), n ≤ 65535 → (v.digestBytes = none ∨ v.digestBytes = some n) →
    ∃ t, runAll (hashCommands v.code n m) s = .next t ∧ t.shPhase = .idle ∧ t.kValid = true ∧
      t.outbox.getLast? = some ⟨0x22#8 ++ 0x00#8 ++ BitVec.ofNat 16 n, sponge v m n⟩ ∧ (sponge v m n).length = n

/-! ## RSA (43_rsa_modexp.md) -/

/-- R11: the conversions between byte strings and naturals. -/
def Obligations.IntegerConversions : Prop :=
  (∀ p : Bytes, os2ip p = ∑ k ∈ Finset.range p.length, (p.getD k 0).toNat * 256 ^ (p.length - 1 - k)) ∧
  (∀ v : Nat, 1 ≤ bytelen v ∧ v < 256 ^ bytelen v ∧ ∀ n, 1 ≤ n → v < 256 ^ n → bytelen v ≤ n) ∧
  (∀ v n : Nat, (i2osp v n).length = n ∧ (v < 256 ^ n → os2ip (i2osp v n) = v)) ∧
  (∀ p : Bytes, i2osp (os2ip p) p.length = p) ∧
  (∀ p : Bytes, p.length = 8 →
    (le64 p).toNat = ∑ k ∈ Finset.range 8, (p.getD k 0).toNat * 256 ^ k ∧ le64inv (le64 p) = p) ∧
  (∀ v : Lane, (le64inv v).length = 8 ∧ le64 (le64inv v) = v)

/-- R184: the register that `ARG` numbers takes the payload's value and becomes valid; nothing else changes. -/
def Obligations.RsaLdLoadsRegister : Prop :=
  ∀ (c : Fields) (s : State), exec (.rsaLd c) s = .next
    (if 3 < c.arg then afterError 0x30 0x02 s
     else if c.payload.length ≠ c.len.toNat ∨ Config.rsaMaxBytes < c.len.toNat then afterError 0x30 0x03 s
     else afterOk 0x30 []
       (if c.arg = 0 then { s with pubN := os2ip c.payload, pubNV := true }
        else if c.arg = 1 then { s with pubE := os2ip c.payload, pubEV := true }
        else if c.arg = 2 then { s with prvN := os2ip c.payload, prvNV := true }
        else { s with prvD := os2ip c.payload, prvDV := true }))

/-- R185, with the value of R181: the base is reduced, not refused. -/
def Obligations.RsaModexpRaisesToPower : Prop :=
  ∀ (c : Fields) (s : State), exec (.rsaModexp c) s = .next
    (let prv := c.arg.getLsbD 1
     let n := if prv then s.prvN else s.pubN
     let e := if prv then s.prvD else s.pubE
     if 3 < c.arg then afterError 0x31 0x02 s
     else if c.payload.length ≠ c.len.toNat ∨ Config.rsaMaxBytes < c.len.toNat then afterError 0x31 0x03 s
     else if (if prv then s.prvNV && s.prvDV else s.pubNV && s.pubEV) = false then afterError 0x31 0x04 s
     else if n = 0 then afterError 0x31 0x14 s
     else afterOk 0x31 (powerOut (os2ip c.payload) e n (c.arg.getLsbD 0)) s)

/-- R187 to R190 with `CHECKED` of R186: the four wrappers, `PUB` for `ENCRYPT` and `VERIFY`, `PRV` for `DECRYPT` and
`SIGN`. -/
def Obligations.RsaWrappersCheckAndRaise : Prop :=
  let wrapper (op : Byte) (loaded : Bool) (n e : Nat) (c : Fields) (s : State) : State :=
    if 1 < c.arg then afterError op 0x02 s
    else if c.payload.length ≠ c.len.toNat ∨ Config.rsaMaxBytes < c.len.toNat then afterError op 0x03 s
    else checkedEnd op loaded n e (os2ip c.payload) (c.arg.getLsbD 0) id s
  ∀ (c : Fields) (s : State),
    exec (.rsaEncrypt c) s = .next (wrapper 0x32 (s.pubNV && s.pubEV) s.pubN s.pubE c s) ∧
    exec (.rsaDecrypt c) s = .next (wrapper 0x33 (s.prvNV && s.prvDV) s.prvN s.prvD c s) ∧
    exec (.rsaSign c) s = .next (wrapper 0x34 (s.prvNV && s.prvDV) s.prvN s.prvD c s) ∧
    exec (.rsaVerify c) s = .next (wrapper 0x35 (s.pubNV && s.pubEV) s.pubN s.pubE c s)

/-- R191: the digest length is checked before the key is looked at. -/
def Obligations.RsaSignhashSignsDigest : Prop :=
  ∀ (c : Fields) (s : State), exec (.rsaSignhash c) s = .next
    (if 1 < c.arg then afterError 0x36 0x02 s
     else if c.payload.length ≠ c.len.toNat then afterError 0x36 0x03 s
     else if c.len < 20 ∨ 64 < c.len then afterError 0x36 0x11 s
     else checkedEnd 0x36 (s.prvNV && s.prvDV) s.prvN s.prvD (os2ip c.payload) (c.arg.getLsbD 0) id s)

/-- R192: the first `ARG` payload bytes are the digest, the others the signature; a mismatch answers `00`, not an
error (R304). -/
def Obligations.RsaVerifyhashGivesVerdict : Prop :=
  ∀ (c : Fields) (s : State), exec (.rsaVerifyhash c) s = .next
    (let hl := c.arg.toNat
     let verdictOf (q : Bytes) : Bytes := if os2ip q = os2ip (c.payload.take hl) then [0x01] else [0x00]
     if c.arg < 20 ∨ 64 < c.arg then afterError 0x37 0x11 s
     else if c.payload.length ≠ c.len.toNat ∨ c.len.toNat < hl ∨ Config.rsaMaxBytes < c.len.toNat - hl then
       afterError 0x37 0x03 s
     else checkedEnd 0x37 (s.pubNV && s.pubEV) s.pubN s.pubE (os2ip (c.payload.drop hl)) false verdictOf s)

/-- R193: under a textbook key loaded in both slots, decrypting what `RSA.ENCRYPT` answered gives the message back, and
verifying what `RSA.SIGN` answered does, in the shortest form without `PAD` and in the modulus's length with it. -/
def Obligations.RsaRoundTrip : Prop :=
  ∀ (s : State) (p q : Nat) (arg : Byte) (m : Bytes),
    RsaInv s → p.Prime → q.Prime → p ≠ q → s.pubN = p * q → s.prvN = p * q →
    s.pubE * s.prvD % ((p - 1) * (q - 1)) = 1 % ((p - 1) * (q - 1)) →
    s.pubNV = true → s.pubEV = true → s.prvNV = true → s.prvDV = true →
    arg ≤ 1 → m.length ≤ Config.rsaMaxBytes → os2ip m < p * q →
    let back := i2osp (os2ip m) (if arg = 1 then bytelen (p * q) else bytelen (os2ip m))
    (∃ c t u, exec (.rsaEncrypt (withPayload arg m)) s = .next t ∧ t.outbox.getLast?.map Response.output = some c ∧
      exec (.rsaDecrypt (withPayload arg c)) t = .next u ∧ u.outbox.getLast?.map Response.output = some back) ∧
    (∃ c t u, exec (.rsaSign (withPayload arg m)) s = .next t ∧ t.outbox.getLast?.map Response.output = some c ∧
      exec (.rsaVerify (withPayload arg c)) t = .next u ∧ u.outbox.getLast?.map Response.output = some back)

/-! ## AES (44_aes.md) -/

/-- The field and the tables: `xtime`, the laws and checks of `gmul` (R221), the S-box by its definition (R222), the
inverse S-box (R223), the round-constant bytes (R224). -/
def Obligations.FieldAndTables : Prop :=
  let affine (b : Byte) : Byte :=
    b ^^^ b.rotateLeft 1 ^^^ b.rotateLeft 2 ^^^ b.rotateLeft 3 ^^^ b.rotateLeft 4 ^^^ 0x63
  (∀ a : Byte, gmul a 0 = 0 ∧ gmul a 1 = a ∧ gmul a 2 = xtime a ∧ gmul a 3 = xtime a ^^^ a ∧
    (xtime a).setWidth 9 =
      if a < 0x80 then a.setWidth 9 <<< 1 else (a.setWidth 9 <<< 1) ^^^ 0x11b) ∧
  (∀ a b c : Byte, gmul a b = gmul b a ∧ gmul a (b ^^^ c) = gmul a b ^^^ gmul a c) ∧
  [0x13, 0x02, 0x03, 0x09, 0x0b, 0x0d, 0x0e].map (gmul 0x57) = [0xfe, 0xae, 0xf9, 0xd9, 0x77, 0x9e, 0x67] ∧
  sbox 0 = affine 0 ∧ (∀ a : Byte, a ≠ 0 → ∃ b : Byte, gmul a b = 1 ∧ sbox a = affine b) ∧
  (∀ a : Byte, invSbox (sbox a) = a ∧ sbox (invSbox a) = a) ∧
  rc1.length = 10 ∧ rc1.getD 0 0 = 1 ∧ (∀ j, j < 9 → rc1.getD (j + 1) 0 = xtime (rc1.getD j 0))

/-- The round steps on `s[r,c]` (R227 to R230); byte `r + 4c` of a block is `s[r,c]` (20_memory.md R64). -/
def Obligations.AesRoundSteps : Prop :=
  ∀ (W : Schedule) (b : Block) (rnd r c : Nat), r < 4 → c < 4 → rnd < 15 →
    let s := cell b
    s r c = b.toList.getD (r + 4 * c) 0 ∧
    cell (addRoundKey W rnd b) r c = s r c ^^^ (W.toList.getD (4 * rnd + c) .zero).byte r ∧
    cell (subBytes b) r c = sbox (s r c) ∧
    cell (invSubBytes b) r c = invSbox (s r c) ∧
    cell (shiftRows b) r c = s r ((c + r) % 4) ∧
    cell (invShiftRows b) r c = s r ((c + 4 - r) % 4) ∧
    cell (mixColumns b) 0 c = gmul (s 0 c) 2 ^^^ gmul (s 1 c) 3 ^^^ s 2 c ^^^ s 3 c ∧
    cell (mixColumns b) 1 c = s 0 c ^^^ gmul (s 1 c) 2 ^^^ gmul (s 2 c) 3 ^^^ s 3 c ∧
    cell (mixColumns b) 2 c = s 0 c ^^^ s 1 c ^^^ gmul (s 2 c) 2 ^^^ gmul (s 3 c) 3 ∧
    cell (mixColumns b) 3 c = gmul (s 0 c) 3 ^^^ s 1 c ^^^ s 2 c ^^^ gmul (s 3 c) 2 ∧
    cell (invMixColumns b) 0 c = gmul (s 0 c) 14 ^^^ gmul (s 1 c) 11 ^^^ gmul (s 2 c) 13 ^^^ gmul (s 3 c) 9 ∧
    cell (invMixColumns b) 1 c = gmul (s 0 c) 9 ^^^ gmul (s 1 c) 14 ^^^ gmul (s 2 c) 11 ^^^ gmul (s 3 c) 13 ∧
    cell (invMixColumns b) 2 c = gmul (s 0 c) 13 ^^^ gmul (s 1 c) 9 ^^^ gmul (s 2 c) 14 ^^^ gmul (s 3 c) 11 ∧
    cell (invMixColumns b) 3 c = gmul (s 0 c) 11 ^^^ gmul (s 1 c) 13 ^^^ gmul (s 2 c) 9 ^^^ gmul (s 3 c) 14 ∧
    invMixColumns (mixColumns b) = b ∧ invShiftRows (shiftRows b) = b ∧ addRoundKey W rnd (addRoundKey W rnd b) = b

/-- R233, R225, R226: a key of 16, 24 or 32 bytes becomes the schedule: its first words are the key, the others follow
the recurrence. The words beyond the key size are free (log 5). -/
def Obligations.AesSetkeyExpandsKey : Prop :=
  (∀ (k : KeySize) (i : Nat) (t : KeyWord), scheduleTemp k i t =
    if i % k.nk = 0 then ⟨sbox t.b1 ^^^ rc1.getD (i / k.nk - 1) 0, sbox t.b2, sbox t.b3, sbox t.b0⟩
    else if 6 < k.nk ∧ i % k.nk = 4 then ⟨sbox t.b0, sbox t.b1, sbox t.b2, sbox t.b3⟩
    else t) ∧
  (∀ (c : Fields) (s : State),
    (c.arg ≠ 0 → exec (.aesSetkey c) s = .next (afterError 0x40 0x02 s)) ∧
    (c.arg = 0 → c.payload.length ≠ c.len.toNat → exec (.aesSetkey c) s = .next (afterError 0x40 0x03 s)) ∧
    (c.arg = 0 → c.payload.length = c.len.toNat → c.len ≠ 16 → c.len ≠ 24 → c.len ≠ 32 →
      exec (.aesSetkey c) s = .next (afterError 0x40 0x12 s)) ∧
    (∀ k : KeySize, c.arg = 0 → c.payload.length = c.len.toNat → c.len.toNat = 4 * k.nk →
      ∃ (W : Schedule) (d : Nat),
        exec (.aesSetkey c) s =
          .next (afterOk 0x40 [] { s with aesNK := k, aesW := W, aesKV := true, freeCount := d }) ∧
        (∀ i j, i < k.nk → j < 4 → (W.toList.getD i .zero).byte j = c.payload.getD (4 * i + j) 0) ∧
        FollowsSchedule k W))

/-- R234 and R235 with the ciphers of R231 and R232 written out. -/
def Obligations.AesBlockCommandsCipher : Prop :=
  let enc (s : State) (b : Block) : Block :=
    addRoundKey s.aesW (s.aesNK.nk + 6) (shiftRows (subBytes
      ((List.range' 1 (s.aesNK.nk + 5)).foldl
        (fun u rnd => addRoundKey s.aesW rnd (mixColumns (shiftRows (subBytes u)))) (addRoundKey s.aesW 0 b))))
  let dec (s : State) (b : Block) : Block :=
    addRoundKey s.aesW 0 (invSubBytes (invShiftRows
      ((List.range' 1 (s.aesNK.nk + 5)).reverse.foldl
        (fun u rnd => invMixColumns (addRoundKey s.aesW rnd (invSubBytes (invShiftRows u))))
        (addRoundKey s.aesW (s.aesNK.nk + 6) b))))
  let oneBlock (op : Byte) (cipher : Block → Block) (c : Fields) (s : State) : State :=
    if c.arg ≠ 0 then afterError op 0x02 s
    else if c.payload.length ≠ c.len.toNat ∨ c.len ≠ 16 then afterError op 0x03 s
    else if s.aesKV = false then afterError op 0x04 s
    else afterOk op (cipher (blockAt c.payload 0)).toList s
  ∀ (c : Fields) (s : State),
    exec (.aesEncblk c) s = .next (oneBlock 0x41 (enc s) c s) ∧
    exec (.aesDecblk c) s = .next (oneBlock 0x42 (dec s) c s)

/-- R236: pad by PKCS#7 (R238), encrypt each block on its own, in order (R239). -/
def Obligations.AesEncryptPadsAndEncrypts : Prop :=
  ∀ (c : Fields) (s : State), exec (.aesEncrypt c) s = .next
    (let padded := c.payload ++ List.replicate (16 - c.payload.length % 16) (BitVec.ofNat 8 (16 - c.payload.length % 16))
     if c.arg ≠ 0 then afterError 0x43 0x02 s
     else if c.payload.length ≠ c.len.toNat ∨ 65519 < c.len then afterError 0x43 0x03 s
     else if s.aesKV = false then afterError 0x43 0x04 s
     else afterOk 0x43
       ((List.range (c.payload.length / 16 + 1)).flatMap fun j =>
         (encBlock s.aesNK s.aesW (blockAt padded j)).toList) s)

/-- R237: decrypt each block (R239), check the padding and remove it (R238). -/
def Obligations.AesDecryptUnpads : Prop :=
  ∀ (c : Fields) (s : State), exec (.aesDecrypt c) s = .next
    (let x := (List.range (c.payload.length / 16)).flatMap fun j =>
       (decBlock s.aesNK s.aesW (blockAt c.payload j)).toList
     let p := (x.getLastD 0).toNat
     if c.arg ≠ 0 then afterError 0x44 0x02 s
     else if c.payload.length ≠ c.len.toNat ∨ c.len = 0 ∨ c.len.toNat % 16 ≠ 0 then afterError 0x44 0x03 s
     else if s.aesKV = false then afterError 0x44 0x04 s
     else if p < 1 ∨ 16 < p ∨ (∃ b ∈ x.drop (x.length - p), b.toNat ≠ p) then afterError 0x44 0x13 s
     else afterOk 0x44 (x.take (x.length - p)) s)

/-- R232: the inverse cipher undoes the cipher and the cipher undoes it, for every key size, schedule and block. -/
def Obligations.AesDecryptionInvertsEncryption : Prop :=
  ∀ (k : KeySize) (W : Schedule) (b : Block),
    decBlock k W (encBlock k W b) = b ∧ encBlock k W (decBlock k W b) = b

/-- R238: what padding adds unpadding removes, and unpadding accepts nothing else. -/
def Obligations.Pkcs7RoundTrip : Prop :=
  (∀ m : Bytes, pkcs7Unpad (pkcs7Pad m) = some m ∧ (pkcs7Pad m).length % 16 = 0 ∧ pkcs7Pad m ≠ []) ∧
  (∀ x m : Bytes, pkcs7Unpad x = some m ↔
    ∃ p, 1 ≤ p ∧ p ≤ 16 ∧ x = m ++ List.replicate p (BitVec.ofNat 8 p))

/-- R237's round trip: under a loaded key `AES.DECRYPT` of what `AES.ENCRYPT` answered gives the message back, for every
message of 0 to 65519 bytes. -/
def Obligations.AesMessageRoundTrip : Prop :=
  ∀ (s : State) (m : Bytes), s.aesKV = true → m.length ≤ 65519 → ∃ c t u,
    exec (.aesEncrypt (withPayload 0 m)) s = .next t ∧ t.outbox.getLast?.map Response.output = some c ∧
    exec (.aesDecrypt (withPayload 0 c)) t = .next u ∧ u.outbox.getLast? = some ⟨0x44#8 ++ 0x00#8 ++ BitVec.ofNat 16 m.length, m⟩

/-! ## RC4 (45_rc4.md) -/

/-- The swap, the key scheduling step and the generation step (R261, R263), and that a key and the key written twice
schedule the same array (R261). -/
def Obligations.Rc4Steps : Prop :=
  (∀ (S : Rc4Array) (i j x : Byte), arrGet (arrSwap S i j) x =
    if x = i then arrGet S j else if x = j then arrGet S i else arrGet S x) ∧
  (∀ x : Byte, arrGet arrIdentity x = x) ∧
  (∀ key : Bytes, ksa key = ((List.range 256).foldl (fun (t : Rc4Array × Byte) i =>
    let j := t.2 + arrGet t.1 (BitVec.ofNat 8 i) + key.getD (i % key.length) 0
    (arrSwap t.1 (BitVec.ofNat 8 i) j, j)) (arrIdentity, 0)).1) ∧
  (∀ t : Rc4Stream, (prgaStep t).1.i = t.i + 1 ∧ (prgaStep t).1.j = t.j + arrGet t.arr (t.i + 1) ∧
    (prgaStep t).1.arr = arrSwap t.arr (prgaStep t).1.i (prgaStep t).1.j ∧
    (prgaStep t).2 = arrGet (prgaStep t).1.arr
      (arrGet (prgaStep t).1.arr (prgaStep t).1.i + arrGet (prgaStep t).1.arr (prgaStep t).1.j)) ∧
  (∀ key : Bytes, key ≠ [] → ksa (key ++ key) = ksa key)

/-- R262: the key is scheduled, the indices zeroed, the stream keyed. -/
def Obligations.Rc4SetkeyStartsStream : Prop :=
  ∀ (c : Fields) (s : State), exec (.rc4Setkey c) s = .next
    (if c.arg ≠ 0 then afterError 0x50 0x02 s
     else if c.payload.length ≠ c.len.toNat then afterError 0x50 0x03 s
     else if c.len < 1 ∨ 256 < c.len then afterError 0x50 0x12 s
     else afterOk 0x50 [] { s with rc4S := ksa c.payload, rc4I := 0, rc4J := 0, rc4Keyed := true })

/-- R264: one generation step for each byte wanted; the index `I` advances by the number of bytes; taking `n` bytes and
then `m` is taking `n + m` and cutting. -/
def Obligations.Rc4KsTakesStreamBytes : Prop :=
  (∀ (c : Fields) (s : State), exec (.rc4Ks c) s = .next
    (let t := streamAfter c.len.toNat ⟨s.rc4S, s.rc4I, s.rc4J⟩
     if c.arg ≠ 0 then afterError 0x51 0x02 s
     else if c.payload ≠ [] then afterError 0x51 0x03 s
     else if s.rc4Keyed = false then afterError 0x51 0x04 s
     else afterOk 0x51 (streamBytes c.len.toNat ⟨s.rc4S, s.rc4I, s.rc4J⟩)
       { s with rc4S := t.arr, rc4I := t.i, rc4J := t.j })) ∧
  (∀ (n : Nat) (t : Rc4Stream), (streamAfter n t).i = t.i + BitVec.ofNat 8 n) ∧
  (∀ (n m : Nat) (t : Rc4Stream), streamAfter (n + m) t = streamAfter m (streamAfter n t) ∧
    streamBytes (n + m) t = streamBytes n t ++ streamBytes m (streamAfter n t))

/-- R265: the payload XORed with the stream bytes, with the state `RC4.KS` of as many bytes leaves; and `RC4.XOR` of the
answer, at the same stream position, answers the payload. -/
def Obligations.Rc4XorIsItsOwnInverse : Prop :=
  (∀ (c : Fields) (s : State), exec (.rc4Xor c) s = .next
    (let t := streamAfter c.payload.length ⟨s.rc4S, s.rc4I, s.rc4J⟩
     if c.arg ≠ 0 then afterError 0x52 0x02 s
     else if c.payload.length ≠ c.len.toNat then afterError 0x52 0x03 s
     else if s.rc4Keyed = false then afterError 0x52 0x04 s
     else afterOk 0x52
       (List.zipWith (fun b k => b ^^^ k) c.payload (streamBytes c.payload.length ⟨s.rc4S, s.rc4I, s.rc4J⟩))
       { s with rc4S := t.arr, rc4I := t.i, rc4J := t.j })) ∧
  (∀ (s s' : State) (p : Bytes), s.rc4Keyed = true → s'.rc4Keyed = true → s'.stream = s.stream → p.length ≤ 65535 →
    ∃ q t u, exec (.rc4Xor (withPayload 0 p)) s = .next t ∧ t.outbox.getLast?.map Response.output = some q ∧
      exec (.rc4Xor (withPayload 0 q)) s' = .next u ∧ u.outbox.getLast?.map Response.output = some p ∧
      u.stream = t.stream)

/-! ## The whole machine -/

/-- The state after reset meets the invariant (R47). The values of the data registers there are log 2's; the statement
holds of them, it does not name them. -/
def Obligations.ResetSatisfiesInvariant : Prop := Inv State.reset

/-- The invariant is inductive: from every state that meets it the step goes on, to a state that meets it (R159, R27,
R32, R225, R43, R92). -/
def Obligations.EveryStepKeepsInvariant : Prop :=
  ∀ s : State, Inv s → ∃ t, step s = .next t ∧ Inv t

/-- No command can tell the difference between two states that differ only in registers that hold no value: the step
answers the same and leaves states that again look the same (R21, R281, R340). The registers' free contents are logs 2
to 5; the statement holds whatever they are. -/
def Obligations.UnwrittenRegistersAreInvisible : Prop :=
  ∀ s t : State, SameView s t → SameOutcome (step s) (step t)

/-- Every command produces exactly one response, with its opcode and a listed code; one that fails changes nothing but
`LASTERR`, one that succeeds leaves `LASTERR`, but for `SYS.RESET` (R90, R300, R302, R303, R43). -/
def Obligations.EveryCommandAnswersOnce : Prop :=
  ∀ (i : Instr) (s : State), SessionInv s → ∃ (t : State) (r : Response),
    exec i s = .next t ∧ t.outbox = s.outbox ++ [r] ∧ t.inbox = s.inbox ∧ r.op = i.op ∧
    (∃ e : ResultCode, r.code = e.code) ∧
    (r.code ≠ 0 → t = afterError i.op r.code s) ∧
    (r.code = 0 → t.lastErr = if i.op = 0x01 then 0 else s.lastErr)

/-- The "Written by" column of R20, register by register: a command that is not listed leaves the register as it was.
Registers whose group holds no value afterwards are not spoken of (R21). -/
def Obligations.OnlyListedCommandsWrite : Prop :=
  ∀ (i : Instr) (s t : State), exec i s = .next t →
    (i.op ∈ [0x10, 0x12, 0x13, 0x20, 0x21, 0x22] ∨ t.kValid = false ∨ t.lanes = s.lanes) ∧
    (i.op ∈ [0x10, 0x20, 0x01] ∨ t.kValid = s.kValid) ∧
    (i.op ∈ [0x20, 0x22, 0x01] ∨ t.shPhase = s.shPhase) ∧
    (i.op = 0x20 ∨ t.shPhase = .idle ∨ t.shVar = s.shVar) ∧
    (i.op ∈ [0x20, 0x21, 0x22] ∨ t.shPhase = .idle ∨ t.shPos = s.shPos) ∧
    (i.op = 0x30 ∨ t.pubNV = false ∨ t.pubN = s.pubN) ∧
    (i.op = 0x30 ∨ t.pubEV = false ∨ t.pubE = s.pubE) ∧
    (i.op = 0x30 ∨ t.prvNV = false ∨ t.prvN = s.prvN) ∧
    (i.op = 0x30 ∨ t.prvDV = false ∨ t.prvD = s.prvD) ∧
    (i.op ∈ [0x30, 0x01] ∨
      (t.pubNV = s.pubNV ∧ t.pubEV = s.pubEV ∧ t.prvNV = s.prvNV ∧ t.prvDV = s.prvDV)) ∧
    (i.op ∈ [0x40, 0x01] ∨ t.aesKV = s.aesKV) ∧
    (i.op = 0x40 ∨ t.aesKV = false ∨ (t.aesNK = s.aesNK ∧ t.aesW = s.aesW)) ∧
    (i.op ∈ [0x50, 0x01] ∨ t.rc4Keyed = s.rc4Keyed) ∧
    (i.op ∈ [0x50, 0x51, 0x52] ∨ t.rc4Keyed = false ∨ (t.rc4S = s.rc4S ∧ t.rc4I = s.rc4I ∧ t.rc4J = s.rc4J))
end

