-- ==== Sys2Proof/Laws/Bytes.lean ====
section
/-! SUPPORT. The integer and byte conversions of 00_scope.md R11: lengths and first facts. -/

namespace Sys2Proof.Machine

/-- The bytes `i2ospOnto` puts in front of its tail are `i2osp`'s. -/
theorem i2ospOnto_eq (n : Nat) : ∀ (v : Nat) (tail : Bytes), i2ospOnto v n tail = i2osp v n ++ tail := by
  induction n with
  | zero => intro v tail; rfl
  | succ n ih =>
    intro v tail
    simp only [i2osp, i2ospOnto]
    rw [ih (v / 256) (BitVec.ofNat 8 v :: tail), ih (v / 256) [BitVec.ofNat 8 v]]
    simp

/-- `I2OSP v (n+1)` is the higher bytes and then the lowest. -/
theorem i2osp_succ (v n : Nat) : i2osp v (n + 1) = i2osp (v / 256) n ++ [BitVec.ofNat 8 v] := by
  rw [i2osp, i2ospOnto, i2ospOnto_eq]

@[simp] theorem i2osp_zero (v : Nat) : i2osp v 0 = [] := rfl

@[simp] theorem length_i2osp (n : Nat) : ∀ v, (i2osp v n).length = n := by
  induction n with
  | zero => intro v; rfl
  | succ n ih => intro v; simp [i2osp_succ, ih]

@[simp] theorem os2ip_nil : os2ip [] = 0 := rfl

/-- One more byte at the end. -/
theorem os2ip_append_singleton (p : Bytes) (b : Byte) : os2ip (p ++ [b]) = os2ip p * 256 + b.toNat := by
  simp [os2ip]

/-- An output of an RSA command has the byte length of the modulus, or of the value (R183). -/
theorem length_rsaOut (v : Nat) (pad : Bool) (n : Nat) :
    (rsaOut v pad n).length = if pad then bytelen n else bytelen v := by
  simp [rsaOut]

end Sys2Proof.Machine
end

