-- ==== Sys2Proof/Laws/Config.lean ====
section
/-! SUPPORT. The bounds of RSA_MAXBYTES (00_scope.md R8) and what fits an RSA register. -/

namespace Sys2Proof

theorem Config.rsaMaxBytes_ge : 256 ≤ Config.rsaMaxBytes := by
  unfold Config.rsaMaxBytes; omega

theorem Config.rsaMaxBytes_le : Config.rsaMaxBytes ≤ 65535 := by
  unfold Config.rsaMaxBytes; omega

/-- What fits is what RSA_MAXBYTES allows. -/
theorem Config.rsaFits_iff (n : Nat) : Config.rsaFits n = true ↔ n ≤ Config.rsaMaxBytes := by
  have h := Config.rsaMaxBytes_ge
  simp only [Config.rsaFits, Bool.or_eq_true, decide_eq_true_eq]
  omega

end Sys2Proof
end

