-- ==== Sys2Proof/Laws/State.lean ====
section
/-! SUPPORT. What each register update does to each field of the state: one lemma a field, true by definition. -/

namespace Sys2Proof.Machine

variable (s : State)

/-! `setLanes` -/

@[simp] theorem State.setLanes_lanes (A : Lanes) : (s.setLanes A).lanes = A := rfl
@[simp] theorem State.setLanes_kValid (A : Lanes) : (s.setLanes A).kValid = s.kValid := rfl
@[simp] theorem State.setLanes_shPhase (A : Lanes) : (s.setLanes A).shPhase = s.shPhase := rfl
@[simp] theorem State.setLanes_shVar (A : Lanes) : (s.setLanes A).shVar = s.shVar := rfl
@[simp] theorem State.setLanes_shPos (A : Lanes) : (s.setLanes A).shPos = s.shPos := rfl
@[simp] theorem State.setLanes_pubN (A : Lanes) : (s.setLanes A).pubN = s.pubN := rfl
@[simp] theorem State.setLanes_pubE (A : Lanes) : (s.setLanes A).pubE = s.pubE := rfl
@[simp] theorem State.setLanes_prvN (A : Lanes) : (s.setLanes A).prvN = s.prvN := rfl
@[simp] theorem State.setLanes_prvD (A : Lanes) : (s.setLanes A).prvD = s.prvD := rfl
@[simp] theorem State.setLanes_pubNV (A : Lanes) : (s.setLanes A).pubNV = s.pubNV := rfl
@[simp] theorem State.setLanes_pubEV (A : Lanes) : (s.setLanes A).pubEV = s.pubEV := rfl
@[simp] theorem State.setLanes_prvNV (A : Lanes) : (s.setLanes A).prvNV = s.prvNV := rfl
@[simp] theorem State.setLanes_prvDV (A : Lanes) : (s.setLanes A).prvDV = s.prvDV := rfl
@[simp] theorem State.setLanes_aesKV (A : Lanes) : (s.setLanes A).aesKV = s.aesKV := rfl
@[simp] theorem State.setLanes_aesNK (A : Lanes) : (s.setLanes A).aesNK = s.aesNK := rfl
@[simp] theorem State.setLanes_aesW (A : Lanes) : (s.setLanes A).aesW = s.aesW := rfl
@[simp] theorem State.setLanes_rc4Keyed (A : Lanes) : (s.setLanes A).rc4Keyed = s.rc4Keyed := rfl
@[simp] theorem State.setLanes_rc4S (A : Lanes) : (s.setLanes A).rc4S = s.rc4S := rfl
@[simp] theorem State.setLanes_rc4I (A : Lanes) : (s.setLanes A).rc4I = s.rc4I := rfl
@[simp] theorem State.setLanes_rc4J (A : Lanes) : (s.setLanes A).rc4J = s.rc4J := rfl
@[simp] theorem State.setLanes_lastErr (A : Lanes) : (s.setLanes A).lastErr = s.lastErr := rfl
@[simp] theorem State.setLanes_inbox (A : Lanes) : (s.setLanes A).inbox = s.inbox := rfl
@[simp] theorem State.setLanes_outbox (A : Lanes) : (s.setLanes A).outbox = s.outbox := rfl
@[simp] theorem State.setLanes_freeCount (A : Lanes) : (s.setLanes A).freeCount = s.freeCount := rfl

/-! `loadLanes` -/

@[simp] theorem State.loadLanes_lanes (A : Lanes) : (s.loadLanes A).lanes = A := rfl
@[simp] theorem State.loadLanes_kValid (A : Lanes) : (s.loadLanes A).kValid = true := rfl
@[simp] theorem State.loadLanes_shPhase (A : Lanes) : (s.loadLanes A).shPhase = s.shPhase := rfl
@[simp] theorem State.loadLanes_shVar (A : Lanes) : (s.loadLanes A).shVar = s.shVar := rfl
@[simp] theorem State.loadLanes_shPos (A : Lanes) : (s.loadLanes A).shPos = s.shPos := rfl
@[simp] theorem State.loadLanes_pubN (A : Lanes) : (s.loadLanes A).pubN = s.pubN := rfl
@[simp] theorem State.loadLanes_pubE (A : Lanes) : (s.loadLanes A).pubE = s.pubE := rfl
@[simp] theorem State.loadLanes_prvN (A : Lanes) : (s.loadLanes A).prvN = s.prvN := rfl
@[simp] theorem State.loadLanes_prvD (A : Lanes) : (s.loadLanes A).prvD = s.prvD := rfl
@[simp] theorem State.loadLanes_pubNV (A : Lanes) : (s.loadLanes A).pubNV = s.pubNV := rfl
@[simp] theorem State.loadLanes_pubEV (A : Lanes) : (s.loadLanes A).pubEV = s.pubEV := rfl
@[simp] theorem State.loadLanes_prvNV (A : Lanes) : (s.loadLanes A).prvNV = s.prvNV := rfl
@[simp] theorem State.loadLanes_prvDV (A : Lanes) : (s.loadLanes A).prvDV = s.prvDV := rfl
@[simp] theorem State.loadLanes_aesKV (A : Lanes) : (s.loadLanes A).aesKV = s.aesKV := rfl
@[simp] theorem State.loadLanes_aesNK (A : Lanes) : (s.loadLanes A).aesNK = s.aesNK := rfl
@[simp] theorem State.loadLanes_aesW (A : Lanes) : (s.loadLanes A).aesW = s.aesW := rfl
@[simp] theorem State.loadLanes_rc4Keyed (A : Lanes) : (s.loadLanes A).rc4Keyed = s.rc4Keyed := rfl
@[simp] theorem State.loadLanes_rc4S (A : Lanes) : (s.loadLanes A).rc4S = s.rc4S := rfl
@[simp] theorem State.loadLanes_rc4I (A : Lanes) : (s.loadLanes A).rc4I = s.rc4I := rfl
@[simp] theorem State.loadLanes_rc4J (A : Lanes) : (s.loadLanes A).rc4J = s.rc4J := rfl
@[simp] theorem State.loadLanes_lastErr (A : Lanes) : (s.loadLanes A).lastErr = s.lastErr := rfl
@[simp] theorem State.loadLanes_inbox (A : Lanes) : (s.loadLanes A).inbox = s.inbox := rfl
@[simp] theorem State.loadLanes_outbox (A : Lanes) : (s.loadLanes A).outbox = s.outbox := rfl
@[simp] theorem State.loadLanes_freeCount (A : Lanes) : (s.loadLanes A).freeCount = s.freeCount := rfl

/-! `openSession` -/

@[simp] theorem State.openSession_lanes (v : Variant) : (s.openSession v).lanes = Vector.replicate 25 0 := rfl
@[simp] theorem State.openSession_kValid (v : Variant) : (s.openSession v).kValid = true := rfl
@[simp] theorem State.openSession_shPhase (v : Variant) : (s.openSession v).shPhase = .absorb := rfl
@[simp] theorem State.openSession_shVar (v : Variant) : (s.openSession v).shVar = v := rfl
@[simp] theorem State.openSession_shPos (v : Variant) : (s.openSession v).shPos = 0 := rfl
@[simp] theorem State.openSession_pubN (v : Variant) : (s.openSession v).pubN = s.pubN := rfl
@[simp] theorem State.openSession_pubE (v : Variant) : (s.openSession v).pubE = s.pubE := rfl
@[simp] theorem State.openSession_prvN (v : Variant) : (s.openSession v).prvN = s.prvN := rfl
@[simp] theorem State.openSession_prvD (v : Variant) : (s.openSession v).prvD = s.prvD := rfl
@[simp] theorem State.openSession_pubNV (v : Variant) : (s.openSession v).pubNV = s.pubNV := rfl
@[simp] theorem State.openSession_pubEV (v : Variant) : (s.openSession v).pubEV = s.pubEV := rfl
@[simp] theorem State.openSession_prvNV (v : Variant) : (s.openSession v).prvNV = s.prvNV := rfl
@[simp] theorem State.openSession_prvDV (v : Variant) : (s.openSession v).prvDV = s.prvDV := rfl
@[simp] theorem State.openSession_aesKV (v : Variant) : (s.openSession v).aesKV = s.aesKV := rfl
@[simp] theorem State.openSession_aesNK (v : Variant) : (s.openSession v).aesNK = s.aesNK := rfl
@[simp] theorem State.openSession_aesW (v : Variant) : (s.openSession v).aesW = s.aesW := rfl
@[simp] theorem State.openSession_rc4Keyed (v : Variant) : (s.openSession v).rc4Keyed = s.rc4Keyed := rfl
@[simp] theorem State.openSession_rc4S (v : Variant) : (s.openSession v).rc4S = s.rc4S := rfl
@[simp] theorem State.openSession_rc4I (v : Variant) : (s.openSession v).rc4I = s.rc4I := rfl
@[simp] theorem State.openSession_rc4J (v : Variant) : (s.openSession v).rc4J = s.rc4J := rfl
@[simp] theorem State.openSession_lastErr (v : Variant) : (s.openSession v).lastErr = s.lastErr := rfl
@[simp] theorem State.openSession_inbox (v : Variant) : (s.openSession v).inbox = s.inbox := rfl
@[simp] theorem State.openSession_outbox (v : Variant) : (s.openSession v).outbox = s.outbox := rfl
@[simp] theorem State.openSession_freeCount (v : Variant) : (s.openSession v).freeCount = s.freeCount := rfl

/-! `setSponge` -/

@[simp] theorem State.setSponge_lanes (A : Lanes) (p : Nat) : (s.setSponge A p).lanes = A := rfl
@[simp] theorem State.setSponge_kValid (A : Lanes) (p : Nat) : (s.setSponge A p).kValid = s.kValid := rfl
@[simp] theorem State.setSponge_shPhase (A : Lanes) (p : Nat) : (s.setSponge A p).shPhase = s.shPhase := rfl
@[simp] theorem State.setSponge_shVar (A : Lanes) (p : Nat) : (s.setSponge A p).shVar = s.shVar := rfl
@[simp] theorem State.setSponge_shPos (A : Lanes) (p : Nat) : (s.setSponge A p).shPos = BitVec.ofNat 8 p := rfl
@[simp] theorem State.setSponge_pubN (A : Lanes) (p : Nat) : (s.setSponge A p).pubN = s.pubN := rfl
@[simp] theorem State.setSponge_pubE (A : Lanes) (p : Nat) : (s.setSponge A p).pubE = s.pubE := rfl
@[simp] theorem State.setSponge_prvN (A : Lanes) (p : Nat) : (s.setSponge A p).prvN = s.prvN := rfl
@[simp] theorem State.setSponge_prvD (A : Lanes) (p : Nat) : (s.setSponge A p).prvD = s.prvD := rfl
@[simp] theorem State.setSponge_pubNV (A : Lanes) (p : Nat) : (s.setSponge A p).pubNV = s.pubNV := rfl
@[simp] theorem State.setSponge_pubEV (A : Lanes) (p : Nat) : (s.setSponge A p).pubEV = s.pubEV := rfl
@[simp] theorem State.setSponge_prvNV (A : Lanes) (p : Nat) : (s.setSponge A p).prvNV = s.prvNV := rfl
@[simp] theorem State.setSponge_prvDV (A : Lanes) (p : Nat) : (s.setSponge A p).prvDV = s.prvDV := rfl
@[simp] theorem State.setSponge_aesKV (A : Lanes) (p : Nat) : (s.setSponge A p).aesKV = s.aesKV := rfl
@[simp] theorem State.setSponge_aesNK (A : Lanes) (p : Nat) : (s.setSponge A p).aesNK = s.aesNK := rfl
@[simp] theorem State.setSponge_aesW (A : Lanes) (p : Nat) : (s.setSponge A p).aesW = s.aesW := rfl
@[simp] theorem State.setSponge_rc4Keyed (A : Lanes) (p : Nat) : (s.setSponge A p).rc4Keyed = s.rc4Keyed := rfl
@[simp] theorem State.setSponge_rc4S (A : Lanes) (p : Nat) : (s.setSponge A p).rc4S = s.rc4S := rfl
@[simp] theorem State.setSponge_rc4I (A : Lanes) (p : Nat) : (s.setSponge A p).rc4I = s.rc4I := rfl
@[simp] theorem State.setSponge_rc4J (A : Lanes) (p : Nat) : (s.setSponge A p).rc4J = s.rc4J := rfl
@[simp] theorem State.setSponge_lastErr (A : Lanes) (p : Nat) : (s.setSponge A p).lastErr = s.lastErr := rfl
@[simp] theorem State.setSponge_inbox (A : Lanes) (p : Nat) : (s.setSponge A p).inbox = s.inbox := rfl
@[simp] theorem State.setSponge_outbox (A : Lanes) (p : Nat) : (s.setSponge A p).outbox = s.outbox := rfl
@[simp] theorem State.setSponge_freeCount (A : Lanes) (p : Nat) : (s.setSponge A p).freeCount = s.freeCount := rfl

/-! `closeSession` -/

@[simp] theorem State.closeSession_lanes (A : Lanes) : (s.closeSession A).lanes = A := rfl
@[simp] theorem State.closeSession_kValid (A : Lanes) : (s.closeSession A).kValid = s.kValid := rfl
@[simp] theorem State.closeSession_shPhase (A : Lanes) : (s.closeSession A).shPhase = .idle := rfl
@[simp] theorem State.closeSession_shVar (A : Lanes) : (s.closeSession A).shVar = freeVariant s.freeCount := rfl
@[simp] theorem State.closeSession_shPos (A : Lanes) : (s.closeSession A).shPos = freePos s.freeCount := rfl
@[simp] theorem State.closeSession_pubN (A : Lanes) : (s.closeSession A).pubN = s.pubN := rfl
@[simp] theorem State.closeSession_pubE (A : Lanes) : (s.closeSession A).pubE = s.pubE := rfl
@[simp] theorem State.closeSession_prvN (A : Lanes) : (s.closeSession A).prvN = s.prvN := rfl
@[simp] theorem State.closeSession_prvD (A : Lanes) : (s.closeSession A).prvD = s.prvD := rfl
@[simp] theorem State.closeSession_pubNV (A : Lanes) : (s.closeSession A).pubNV = s.pubNV := rfl
@[simp] theorem State.closeSession_pubEV (A : Lanes) : (s.closeSession A).pubEV = s.pubEV := rfl
@[simp] theorem State.closeSession_prvNV (A : Lanes) : (s.closeSession A).prvNV = s.prvNV := rfl
@[simp] theorem State.closeSession_prvDV (A : Lanes) : (s.closeSession A).prvDV = s.prvDV := rfl
@[simp] theorem State.closeSession_aesKV (A : Lanes) : (s.closeSession A).aesKV = s.aesKV := rfl
@[simp] theorem State.closeSession_aesNK (A : Lanes) : (s.closeSession A).aesNK = s.aesNK := rfl
@[simp] theorem State.closeSession_aesW (A : Lanes) : (s.closeSession A).aesW = s.aesW := rfl
@[simp] theorem State.closeSession_rc4Keyed (A : Lanes) : (s.closeSession A).rc4Keyed = s.rc4Keyed := rfl
@[simp] theorem State.closeSession_rc4S (A : Lanes) : (s.closeSession A).rc4S = s.rc4S := rfl
@[simp] theorem State.closeSession_rc4I (A : Lanes) : (s.closeSession A).rc4I = s.rc4I := rfl
@[simp] theorem State.closeSession_rc4J (A : Lanes) : (s.closeSession A).rc4J = s.rc4J := rfl
@[simp] theorem State.closeSession_lastErr (A : Lanes) : (s.closeSession A).lastErr = s.lastErr := rfl
@[simp] theorem State.closeSession_inbox (A : Lanes) : (s.closeSession A).inbox = s.inbox := rfl
@[simp] theorem State.closeSession_outbox (A : Lanes) : (s.closeSession A).outbox = s.outbox := rfl
@[simp] theorem State.closeSession_freeCount (A : Lanes) : (s.closeSession A).freeCount = s.freeCount + 1 := rfl

/-! `loadAesKey` -/

@[simp] theorem State.loadAesKey_lanes (k : KeySize) (ws : List KeyWord) : (s.loadAesKey k ws).lanes = s.lanes := rfl
@[simp] theorem State.loadAesKey_kValid (k : KeySize) (ws : List KeyWord) :
    (s.loadAesKey k ws).kValid = s.kValid := rfl
@[simp] theorem State.loadAesKey_shPhase (k : KeySize) (ws : List KeyWord) :
    (s.loadAesKey k ws).shPhase = s.shPhase := rfl
@[simp] theorem State.loadAesKey_shVar (k : KeySize) (ws : List KeyWord) : (s.loadAesKey k ws).shVar = s.shVar := rfl
@[simp] theorem State.loadAesKey_shPos (k : KeySize) (ws : List KeyWord) : (s.loadAesKey k ws).shPos = s.shPos := rfl
@[simp] theorem State.loadAesKey_pubN (k : KeySize) (ws : List KeyWord) : (s.loadAesKey k ws).pubN = s.pubN := rfl
@[simp] theorem State.loadAesKey_pubE (k : KeySize) (ws : List KeyWord) : (s.loadAesKey k ws).pubE = s.pubE := rfl
@[simp] theorem State.loadAesKey_prvN (k : KeySize) (ws : List KeyWord) : (s.loadAesKey k ws).prvN = s.prvN := rfl
@[simp] theorem State.loadAesKey_prvD (k : KeySize) (ws : List KeyWord) : (s.loadAesKey k ws).prvD = s.prvD := rfl
@[simp] theorem State.loadAesKey_pubNV (k : KeySize) (ws : List KeyWord) : (s.loadAesKey k ws).pubNV = s.pubNV := rfl
@[simp] theorem State.loadAesKey_pubEV (k : KeySize) (ws : List KeyWord) : (s.loadAesKey k ws).pubEV = s.pubEV := rfl
@[simp] theorem State.loadAesKey_prvNV (k : KeySize) (ws : List KeyWord) : (s.loadAesKey k ws).prvNV = s.prvNV := rfl
@[simp] theorem State.loadAesKey_prvDV (k : KeySize) (ws : List KeyWord) : (s.loadAesKey k ws).prvDV = s.prvDV := rfl
@[simp] theorem State.loadAesKey_aesKV (k : KeySize) (ws : List KeyWord) : (s.loadAesKey k ws).aesKV = true := rfl
@[simp] theorem State.loadAesKey_aesNK (k : KeySize) (ws : List KeyWord) : (s.loadAesKey k ws).aesNK = k := rfl
@[simp] theorem State.loadAesKey_rc4Keyed (k : KeySize) (ws : List KeyWord) :
    (s.loadAesKey k ws).rc4Keyed = s.rc4Keyed := rfl
@[simp] theorem State.loadAesKey_rc4S (k : KeySize) (ws : List KeyWord) : (s.loadAesKey k ws).rc4S = s.rc4S := rfl
@[simp] theorem State.loadAesKey_rc4I (k : KeySize) (ws : List KeyWord) : (s.loadAesKey k ws).rc4I = s.rc4I := rfl
@[simp] theorem State.loadAesKey_rc4J (k : KeySize) (ws : List KeyWord) : (s.loadAesKey k ws).rc4J = s.rc4J := rfl
@[simp] theorem State.loadAesKey_lastErr (k : KeySize) (ws : List KeyWord) :
    (s.loadAesKey k ws).lastErr = s.lastErr := rfl
@[simp] theorem State.loadAesKey_inbox (k : KeySize) (ws : List KeyWord) : (s.loadAesKey k ws).inbox = s.inbox := rfl
@[simp] theorem State.loadAesKey_outbox (k : KeySize) (ws : List KeyWord) :
    (s.loadAesKey k ws).outbox = s.outbox := rfl
@[simp] theorem State.loadAesKey_freeCount (k : KeySize) (ws : List KeyWord) :
    (s.loadAesKey k ws).freeCount = s.freeCount + 1 := rfl

/-! `setStream` -/

@[simp] theorem State.setStream_lanes (t : Rc4Stream) : (s.setStream t).lanes = s.lanes := rfl
@[simp] theorem State.setStream_kValid (t : Rc4Stream) : (s.setStream t).kValid = s.kValid := rfl
@[simp] theorem State.setStream_shPhase (t : Rc4Stream) : (s.setStream t).shPhase = s.shPhase := rfl
@[simp] theorem State.setStream_shVar (t : Rc4Stream) : (s.setStream t).shVar = s.shVar := rfl
@[simp] theorem State.setStream_shPos (t : Rc4Stream) : (s.setStream t).shPos = s.shPos := rfl
@[simp] theorem State.setStream_pubN (t : Rc4Stream) : (s.setStream t).pubN = s.pubN := rfl
@[simp] theorem State.setStream_pubE (t : Rc4Stream) : (s.setStream t).pubE = s.pubE := rfl
@[simp] theorem State.setStream_prvN (t : Rc4Stream) : (s.setStream t).prvN = s.prvN := rfl
@[simp] theorem State.setStream_prvD (t : Rc4Stream) : (s.setStream t).prvD = s.prvD := rfl
@[simp] theorem State.setStream_pubNV (t : Rc4Stream) : (s.setStream t).pubNV = s.pubNV := rfl
@[simp] theorem State.setStream_pubEV (t : Rc4Stream) : (s.setStream t).pubEV = s.pubEV := rfl
@[simp] theorem State.setStream_prvNV (t : Rc4Stream) : (s.setStream t).prvNV = s.prvNV := rfl
@[simp] theorem State.setStream_prvDV (t : Rc4Stream) : (s.setStream t).prvDV = s.prvDV := rfl
@[simp] theorem State.setStream_aesKV (t : Rc4Stream) : (s.setStream t).aesKV = s.aesKV := rfl
@[simp] theorem State.setStream_aesNK (t : Rc4Stream) : (s.setStream t).aesNK = s.aesNK := rfl
@[simp] theorem State.setStream_aesW (t : Rc4Stream) : (s.setStream t).aesW = s.aesW := rfl
@[simp] theorem State.setStream_rc4Keyed (t : Rc4Stream) : (s.setStream t).rc4Keyed = s.rc4Keyed := rfl
@[simp] theorem State.setStream_rc4S (t : Rc4Stream) : (s.setStream t).rc4S = t.arr := rfl
@[simp] theorem State.setStream_rc4I (t : Rc4Stream) : (s.setStream t).rc4I = t.i := rfl
@[simp] theorem State.setStream_rc4J (t : Rc4Stream) : (s.setStream t).rc4J = t.j := rfl
@[simp] theorem State.setStream_lastErr (t : Rc4Stream) : (s.setStream t).lastErr = s.lastErr := rfl
@[simp] theorem State.setStream_inbox (t : Rc4Stream) : (s.setStream t).inbox = s.inbox := rfl
@[simp] theorem State.setStream_outbox (t : Rc4Stream) : (s.setStream t).outbox = s.outbox := rfl
@[simp] theorem State.setStream_freeCount (t : Rc4Stream) : (s.setStream t).freeCount = s.freeCount := rfl

/-! `loadRc4Key` -/

@[simp] theorem State.loadRc4Key_lanes (t : Rc4Stream) : (s.loadRc4Key t).lanes = s.lanes := rfl
@[simp] theorem State.loadRc4Key_kValid (t : Rc4Stream) : (s.loadRc4Key t).kValid = s.kValid := rfl
@[simp] theorem State.loadRc4Key_shPhase (t : Rc4Stream) : (s.loadRc4Key t).shPhase = s.shPhase := rfl
@[simp] theorem State.loadRc4Key_shVar (t : Rc4Stream) : (s.loadRc4Key t).shVar = s.shVar := rfl
@[simp] theorem State.loadRc4Key_shPos (t : Rc4Stream) : (s.loadRc4Key t).shPos = s.shPos := rfl
@[simp] theorem State.loadRc4Key_pubN (t : Rc4Stream) : (s.loadRc4Key t).pubN = s.pubN := rfl
@[simp] theorem State.loadRc4Key_pubE (t : Rc4Stream) : (s.loadRc4Key t).pubE = s.pubE := rfl
@[simp] theorem State.loadRc4Key_prvN (t : Rc4Stream) : (s.loadRc4Key t).prvN = s.prvN := rfl
@[simp] theorem State.loadRc4Key_prvD (t : Rc4Stream) : (s.loadRc4Key t).prvD = s.prvD := rfl
@[simp] theorem State.loadRc4Key_pubNV (t : Rc4Stream) : (s.loadRc4Key t).pubNV = s.pubNV := rfl
@[simp] theorem State.loadRc4Key_pubEV (t : Rc4Stream) : (s.loadRc4Key t).pubEV = s.pubEV := rfl
@[simp] theorem State.loadRc4Key_prvNV (t : Rc4Stream) : (s.loadRc4Key t).prvNV = s.prvNV := rfl
@[simp] theorem State.loadRc4Key_prvDV (t : Rc4Stream) : (s.loadRc4Key t).prvDV = s.prvDV := rfl
@[simp] theorem State.loadRc4Key_aesKV (t : Rc4Stream) : (s.loadRc4Key t).aesKV = s.aesKV := rfl
@[simp] theorem State.loadRc4Key_aesNK (t : Rc4Stream) : (s.loadRc4Key t).aesNK = s.aesNK := rfl
@[simp] theorem State.loadRc4Key_aesW (t : Rc4Stream) : (s.loadRc4Key t).aesW = s.aesW := rfl
@[simp] theorem State.loadRc4Key_rc4Keyed (t : Rc4Stream) : (s.loadRc4Key t).rc4Keyed = true := rfl
@[simp] theorem State.loadRc4Key_rc4S (t : Rc4Stream) : (s.loadRc4Key t).rc4S = t.arr := rfl
@[simp] theorem State.loadRc4Key_rc4I (t : Rc4Stream) : (s.loadRc4Key t).rc4I = t.i := rfl
@[simp] theorem State.loadRc4Key_rc4J (t : Rc4Stream) : (s.loadRc4Key t).rc4J = t.j := rfl
@[simp] theorem State.loadRc4Key_lastErr (t : Rc4Stream) : (s.loadRc4Key t).lastErr = s.lastErr := rfl
@[simp] theorem State.loadRc4Key_inbox (t : Rc4Stream) : (s.loadRc4Key t).inbox = s.inbox := rfl
@[simp] theorem State.loadRc4Key_outbox (t : Rc4Stream) : (s.loadRc4Key t).outbox = s.outbox := rfl
@[simp] theorem State.loadRc4Key_freeCount (t : Rc4Stream) : (s.loadRc4Key t).freeCount = s.freeCount := rfl

/-! `resetCore` -/

@[simp] theorem State.resetCore_lanes : (s.resetCore).lanes = freeLanes s.freeCount := rfl
@[simp] theorem State.resetCore_kValid : (s.resetCore).kValid = false := rfl
@[simp] theorem State.resetCore_shPhase : (s.resetCore).shPhase = .idle := rfl
@[simp] theorem State.resetCore_shVar : (s.resetCore).shVar = freeVariant s.freeCount := rfl
@[simp] theorem State.resetCore_shPos : (s.resetCore).shPos = freePos s.freeCount := rfl
@[simp] theorem State.resetCore_pubN : (s.resetCore).pubN = freeRsa s.freeCount 1 := rfl
@[simp] theorem State.resetCore_pubE : (s.resetCore).pubE = freeRsa s.freeCount 2 := rfl
@[simp] theorem State.resetCore_prvN : (s.resetCore).prvN = freeRsa s.freeCount 3 := rfl
@[simp] theorem State.resetCore_prvD : (s.resetCore).prvD = freeRsa s.freeCount 4 := rfl
@[simp] theorem State.resetCore_pubNV : (s.resetCore).pubNV = false := rfl
@[simp] theorem State.resetCore_pubEV : (s.resetCore).pubEV = false := rfl
@[simp] theorem State.resetCore_prvNV : (s.resetCore).prvNV = false := rfl
@[simp] theorem State.resetCore_prvDV : (s.resetCore).prvDV = false := rfl
@[simp] theorem State.resetCore_aesKV : (s.resetCore).aesKV = false := rfl
@[simp] theorem State.resetCore_aesNK : (s.resetCore).aesNK = freeKeySize s.freeCount := rfl
@[simp] theorem State.resetCore_aesW : (s.resetCore).aesW = freeSchedule s.freeCount := rfl
@[simp] theorem State.resetCore_rc4Keyed : (s.resetCore).rc4Keyed = false := rfl
@[simp] theorem State.resetCore_rc4S : (s.resetCore).rc4S = freeRc4Array s.freeCount := rfl
@[simp] theorem State.resetCore_rc4I : (s.resetCore).rc4I = freeRc4I s.freeCount := rfl
@[simp] theorem State.resetCore_rc4J : (s.resetCore).rc4J = freeRc4J s.freeCount := rfl
@[simp] theorem State.resetCore_lastErr : (s.resetCore).lastErr = 0 := rfl
@[simp] theorem State.resetCore_inbox : (s.resetCore).inbox = s.inbox := rfl
@[simp] theorem State.resetCore_outbox : (s.resetCore).outbox = s.outbox := rfl
@[simp] theorem State.resetCore_freeCount : (s.resetCore).freeCount = s.freeCount + 1 := rfl

/-! `setLastErr` -/

@[simp] theorem State.setLastErr_lanes (w : BitVec 32) : (s.setLastErr w).lanes = s.lanes := rfl
@[simp] theorem State.setLastErr_kValid (w : BitVec 32) : (s.setLastErr w).kValid = s.kValid := rfl
@[simp] theorem State.setLastErr_shPhase (w : BitVec 32) : (s.setLastErr w).shPhase = s.shPhase := rfl
@[simp] theorem State.setLastErr_shVar (w : BitVec 32) : (s.setLastErr w).shVar = s.shVar := rfl
@[simp] theorem State.setLastErr_shPos (w : BitVec 32) : (s.setLastErr w).shPos = s.shPos := rfl
@[simp] theorem State.setLastErr_pubN (w : BitVec 32) : (s.setLastErr w).pubN = s.pubN := rfl
@[simp] theorem State.setLastErr_pubE (w : BitVec 32) : (s.setLastErr w).pubE = s.pubE := rfl
@[simp] theorem State.setLastErr_prvN (w : BitVec 32) : (s.setLastErr w).prvN = s.prvN := rfl
@[simp] theorem State.setLastErr_prvD (w : BitVec 32) : (s.setLastErr w).prvD = s.prvD := rfl
@[simp] theorem State.setLastErr_pubNV (w : BitVec 32) : (s.setLastErr w).pubNV = s.pubNV := rfl
@[simp] theorem State.setLastErr_pubEV (w : BitVec 32) : (s.setLastErr w).pubEV = s.pubEV := rfl
@[simp] theorem State.setLastErr_prvNV (w : BitVec 32) : (s.setLastErr w).prvNV = s.prvNV := rfl
@[simp] theorem State.setLastErr_prvDV (w : BitVec 32) : (s.setLastErr w).prvDV = s.prvDV := rfl
@[simp] theorem State.setLastErr_aesKV (w : BitVec 32) : (s.setLastErr w).aesKV = s.aesKV := rfl
@[simp] theorem State.setLastErr_aesNK (w : BitVec 32) : (s.setLastErr w).aesNK = s.aesNK := rfl
@[simp] theorem State.setLastErr_aesW (w : BitVec 32) : (s.setLastErr w).aesW = s.aesW := rfl
@[simp] theorem State.setLastErr_rc4Keyed (w : BitVec 32) : (s.setLastErr w).rc4Keyed = s.rc4Keyed := rfl
@[simp] theorem State.setLastErr_rc4S (w : BitVec 32) : (s.setLastErr w).rc4S = s.rc4S := rfl
@[simp] theorem State.setLastErr_rc4I (w : BitVec 32) : (s.setLastErr w).rc4I = s.rc4I := rfl
@[simp] theorem State.setLastErr_rc4J (w : BitVec 32) : (s.setLastErr w).rc4J = s.rc4J := rfl
@[simp] theorem State.setLastErr_lastErr (w : BitVec 32) : (s.setLastErr w).lastErr = w := rfl
@[simp] theorem State.setLastErr_inbox (w : BitVec 32) : (s.setLastErr w).inbox = s.inbox := rfl
@[simp] theorem State.setLastErr_outbox (w : BitVec 32) : (s.setLastErr w).outbox = s.outbox := rfl
@[simp] theorem State.setLastErr_freeCount (w : BitVec 32) : (s.setLastErr w).freeCount = s.freeCount := rfl

/-! `push` -/

@[simp] theorem State.push_lanes (r : Response) : (s.push r).lanes = s.lanes := rfl
@[simp] theorem State.push_kValid (r : Response) : (s.push r).kValid = s.kValid := rfl
@[simp] theorem State.push_shPhase (r : Response) : (s.push r).shPhase = s.shPhase := rfl
@[simp] theorem State.push_shVar (r : Response) : (s.push r).shVar = s.shVar := rfl
@[simp] theorem State.push_shPos (r : Response) : (s.push r).shPos = s.shPos := rfl
@[simp] theorem State.push_pubN (r : Response) : (s.push r).pubN = s.pubN := rfl
@[simp] theorem State.push_pubE (r : Response) : (s.push r).pubE = s.pubE := rfl
@[simp] theorem State.push_prvN (r : Response) : (s.push r).prvN = s.prvN := rfl
@[simp] theorem State.push_prvD (r : Response) : (s.push r).prvD = s.prvD := rfl
@[simp] theorem State.push_pubNV (r : Response) : (s.push r).pubNV = s.pubNV := rfl
@[simp] theorem State.push_pubEV (r : Response) : (s.push r).pubEV = s.pubEV := rfl
@[simp] theorem State.push_prvNV (r : Response) : (s.push r).prvNV = s.prvNV := rfl
@[simp] theorem State.push_prvDV (r : Response) : (s.push r).prvDV = s.prvDV := rfl
@[simp] theorem State.push_aesKV (r : Response) : (s.push r).aesKV = s.aesKV := rfl
@[simp] theorem State.push_aesNK (r : Response) : (s.push r).aesNK = s.aesNK := rfl
@[simp] theorem State.push_aesW (r : Response) : (s.push r).aesW = s.aesW := rfl
@[simp] theorem State.push_rc4Keyed (r : Response) : (s.push r).rc4Keyed = s.rc4Keyed := rfl
@[simp] theorem State.push_rc4S (r : Response) : (s.push r).rc4S = s.rc4S := rfl
@[simp] theorem State.push_rc4I (r : Response) : (s.push r).rc4I = s.rc4I := rfl
@[simp] theorem State.push_rc4J (r : Response) : (s.push r).rc4J = s.rc4J := rfl
@[simp] theorem State.push_lastErr (r : Response) : (s.push r).lastErr = s.lastErr := rfl
@[simp] theorem State.push_inbox (r : Response) : (s.push r).inbox = s.inbox := rfl
@[simp] theorem State.push_outbox (r : Response) : (s.push r).outbox = s.outbox ++ [r] := rfl
@[simp] theorem State.push_freeCount (r : Response) : (s.push r).freeCount = s.freeCount := rfl

/-! `setInbox` -/

@[simp] theorem State.setInbox_lanes (es : List HostEvent) : (s.setInbox es).lanes = s.lanes := rfl
@[simp] theorem State.setInbox_kValid (es : List HostEvent) : (s.setInbox es).kValid = s.kValid := rfl
@[simp] theorem State.setInbox_shPhase (es : List HostEvent) : (s.setInbox es).shPhase = s.shPhase := rfl
@[simp] theorem State.setInbox_shVar (es : List HostEvent) : (s.setInbox es).shVar = s.shVar := rfl
@[simp] theorem State.setInbox_shPos (es : List HostEvent) : (s.setInbox es).shPos = s.shPos := rfl
@[simp] theorem State.setInbox_pubN (es : List HostEvent) : (s.setInbox es).pubN = s.pubN := rfl
@[simp] theorem State.setInbox_pubE (es : List HostEvent) : (s.setInbox es).pubE = s.pubE := rfl
@[simp] theorem State.setInbox_prvN (es : List HostEvent) : (s.setInbox es).prvN = s.prvN := rfl
@[simp] theorem State.setInbox_prvD (es : List HostEvent) : (s.setInbox es).prvD = s.prvD := rfl
@[simp] theorem State.setInbox_pubNV (es : List HostEvent) : (s.setInbox es).pubNV = s.pubNV := rfl
@[simp] theorem State.setInbox_pubEV (es : List HostEvent) : (s.setInbox es).pubEV = s.pubEV := rfl
@[simp] theorem State.setInbox_prvNV (es : List HostEvent) : (s.setInbox es).prvNV = s.prvNV := rfl
@[simp] theorem State.setInbox_prvDV (es : List HostEvent) : (s.setInbox es).prvDV = s.prvDV := rfl
@[simp] theorem State.setInbox_aesKV (es : List HostEvent) : (s.setInbox es).aesKV = s.aesKV := rfl
@[simp] theorem State.setInbox_aesNK (es : List HostEvent) : (s.setInbox es).aesNK = s.aesNK := rfl
@[simp] theorem State.setInbox_aesW (es : List HostEvent) : (s.setInbox es).aesW = s.aesW := rfl
@[simp] theorem State.setInbox_rc4Keyed (es : List HostEvent) : (s.setInbox es).rc4Keyed = s.rc4Keyed := rfl
@[simp] theorem State.setInbox_rc4S (es : List HostEvent) : (s.setInbox es).rc4S = s.rc4S := rfl
@[simp] theorem State.setInbox_rc4I (es : List HostEvent) : (s.setInbox es).rc4I = s.rc4I := rfl
@[simp] theorem State.setInbox_rc4J (es : List HostEvent) : (s.setInbox es).rc4J = s.rc4J := rfl
@[simp] theorem State.setInbox_lastErr (es : List HostEvent) : (s.setInbox es).lastErr = s.lastErr := rfl
@[simp] theorem State.setInbox_inbox (es : List HostEvent) : (s.setInbox es).inbox = es := rfl
@[simp] theorem State.setInbox_outbox (es : List HostEvent) : (s.setInbox es).outbox = s.outbox := rfl
@[simp] theorem State.setInbox_freeCount (es : List HostEvent) : (s.setInbox es).freeCount = s.freeCount := rfl

/-! `loadRsa` writes one register of four and its flag. -/

@[simp] theorem State.loadRsa_lanes (r : RsaReg) (v : Nat) : (s.loadRsa r v).lanes = s.lanes := by cases r <;> rfl
@[simp] theorem State.loadRsa_kValid (r : RsaReg) (v : Nat) : (s.loadRsa r v).kValid = s.kValid := by cases r <;> rfl
@[simp] theorem State.loadRsa_shPhase (r : RsaReg) (v : Nat) : (s.loadRsa r v).shPhase = s.shPhase := by cases r <;> rfl
@[simp] theorem State.loadRsa_shVar (r : RsaReg) (v : Nat) : (s.loadRsa r v).shVar = s.shVar := by cases r <;> rfl
@[simp] theorem State.loadRsa_shPos (r : RsaReg) (v : Nat) : (s.loadRsa r v).shPos = s.shPos := by cases r <;> rfl
@[simp] theorem State.loadRsa_aesKV (r : RsaReg) (v : Nat) : (s.loadRsa r v).aesKV = s.aesKV := by cases r <;> rfl
@[simp] theorem State.loadRsa_aesNK (r : RsaReg) (v : Nat) : (s.loadRsa r v).aesNK = s.aesNK := by cases r <;> rfl
@[simp] theorem State.loadRsa_aesW (r : RsaReg) (v : Nat) : (s.loadRsa r v).aesW = s.aesW := by cases r <;> rfl
@[simp] theorem State.loadRsa_rc4Keyed (r : RsaReg) (v : Nat) : (s.loadRsa r v).rc4Keyed = s.rc4Keyed := by cases r <;> rfl
@[simp] theorem State.loadRsa_rc4S (r : RsaReg) (v : Nat) : (s.loadRsa r v).rc4S = s.rc4S := by cases r <;> rfl
@[simp] theorem State.loadRsa_rc4I (r : RsaReg) (v : Nat) : (s.loadRsa r v).rc4I = s.rc4I := by cases r <;> rfl
@[simp] theorem State.loadRsa_rc4J (r : RsaReg) (v : Nat) : (s.loadRsa r v).rc4J = s.rc4J := by cases r <;> rfl
@[simp] theorem State.loadRsa_lastErr (r : RsaReg) (v : Nat) : (s.loadRsa r v).lastErr = s.lastErr := by cases r <;> rfl
@[simp] theorem State.loadRsa_inbox (r : RsaReg) (v : Nat) : (s.loadRsa r v).inbox = s.inbox := by cases r <;> rfl
@[simp] theorem State.loadRsa_outbox (r : RsaReg) (v : Nat) : (s.loadRsa r v).outbox = s.outbox := by cases r <;> rfl
@[simp] theorem State.loadRsa_freeCount (r : RsaReg) (v : Nat) : (s.loadRsa r v).freeCount = s.freeCount := by cases r <;> rfl

/-! The stream registers as one value. -/

@[simp] theorem State.stream_setStream (t : Rc4Stream) : (s.setStream t).stream = t := rfl
@[simp] theorem State.stream_loadRc4Key (t : Rc4Stream) : (s.loadRc4Key t).stream = t := rfl
@[simp] theorem State.stream_setInbox (es : List HostEvent) : (s.setInbox es).stream = s.stream := rfl
@[simp] theorem State.stream_push (r : Response) : (s.push r).stream = s.stream := rfl

end Sys2Proof.Machine
end

