-- ==== Sys2Proof/Laws/Ops.lean ====
section
/-! SUPPORT. What each shared operation can do, said once: taking an error, responding, the checks of a command, the
answer of a command, fetching, and the step. Proofs cite these instead of unfolding the operations. -/

namespace Sys2Proof.Machine

/-- Taking an error leaves what R302 and R303 say. -/
theorem takeError_eq (op : Byte) (e : ErrorCode) (s : State) : takeError op e s = afterError op e.code s := rfl

/-- Responding adds one response (R92). -/
theorem respond_eq (op : Byte) (q : Bytes) (s : State) : respond op q s = afterOk op q s := rfl

@[simp] theorem firstError_nil : firstError [] = none := rfl

@[simp] theorem firstError_fails (e : ErrorCode) (cs : List Check) : firstError (⟨true, e⟩ :: cs) = some e := rfl

@[simp] theorem firstError_passes (e : ErrorCode) (cs : List Check) :
    firstError (⟨false, e⟩ :: cs) = firstError cs := rfl

theorem firstError_cons (b : Bool) (e : ErrorCode) (cs : List Check) :
    firstError (⟨b, e⟩ :: cs) = if b = true then some e else firstError cs := rfl

/-- The first failing check is one of the checks, and it fails. -/
theorem firstError_some {cs : List Check} {e : ErrorCode} (h : firstError cs = some e) :
    ∃ c ∈ cs, c.fails = true ∧ c.err = e := by
  induction cs with
  | nil => simp at h
  | cons c cs ih =>
    rcases c with ⟨b, e'⟩
    cases b with
    | true => exact ⟨⟨true, e'⟩, by simp, rfl, by simpa using h⟩
    | false =>
      obtain ⟨c, hc, h1⟩ := ih (by simpa using h)
      exact ⟨c, by simp [hc], h1⟩

/-- No error means that every check passes. -/
theorem firstError_none {cs : List Check} : firstError cs = none ↔ ∀ c ∈ cs, c.fails = false := by
  induction cs with
  | nil => simp
  | cons c cs ih =>
    rcases c with ⟨b, e'⟩
    cases b <;> simp [ih]

/-- Where every check passes a command has its effect. -/
theorem attempt_pass {op : Byte} {cs : List Check} {s : State} {f : State → Result} (h : firstError cs = none) :
    attempt op cs s f = f s := by
  simp [attempt, h]

/-- Where a check fails the command takes the first error. -/
theorem attempt_fail {op : Byte} {cs : List Check} {s : State} {f : State → Result} {e : ErrorCode}
    (h : firstError cs = some e) : attempt op cs s f = .next (afterError op e.code s) := by
  simp [attempt, h, takeError_eq]

/-- All that `attempt` can do. -/
theorem attempt_cases (op : Byte) (cs : List Check) (s : State) (f : State → Result) :
    (∃ e, firstError cs = some e ∧ attempt op cs s f = .next (afterError op e.code s)) ∨
      (firstError cs = none ∧ attempt op cs s f = f s) := by
  cases h : firstError cs with
  | none => exact .inr ⟨rfl, attempt_pass h⟩
  | some e => exact .inl ⟨e, rfl, attempt_fail h⟩

@[simp] theorem answer_ok (op : Byte) (q : Bytes) (s : State) : answer op (.ok q) s = .next (afterOk op q s) := rfl

@[simp] theorem answer_error (op : Byte) (e : ErrorCode) (s : State) :
    answer op (.error e) s = .next (afterError op e.code s) := rfl

/-- All that `answer` can do. -/
theorem answer_cases (op : Byte) (r : Except ErrorCode Bytes) (s : State) :
    (∃ e, r = .error e ∧ answer op r s = .next (afterError op e.code s)) ∨
      (∃ q, r = .ok q ∧ answer op r s = .next (afterOk op q s)) := by
  cases r with
  | error e => exact .inl ⟨e, rfl, rfl⟩
  | ok q => exact .inr ⟨q, rfl, rfl⟩

/-- All that `withSession` can do. -/
theorem withSession_cases (s : State) (f : State → Result) :
    (s.shPos.toNat < s.shVar.rateBytes ∧ withSession s f = f s) ∨
      (¬ s.shPos.toNat < s.shVar.rateBytes ∧ withSession s f = .fault .spongePosition) := by
  by_cases h : s.shPos.toNat < s.shVar.rateBytes
  · exact .inl ⟨h, by simp [withSession, h]⟩
  · exact .inr ⟨h, by simp [withSession, h]⟩

/-- `CHECKED` of R186: its three outcomes. -/
theorem checked_cases (slot : Slot) (p : Bytes) (pad : Bool) (s : State) :
    (s.slotReady slot = false ∧ checked slot p pad s = .error .notReady) ∨
    (s.slotReady slot = true ∧ s.modulus slot ≤ os2ip p ∧ checked slot p pad s = .error .dataTooLarge) ∨
    (s.slotReady slot = true ∧ os2ip p < s.modulus slot ∧
      checked slot p pad s =
        .ok (rsaOut (modexp (os2ip p) (s.exponent slot) (s.modulus slot)) pad (s.modulus slot))) := by
  cases h : s.slotReady slot with
  | false => exact .inl ⟨rfl, by simp [checked, h]⟩
  | true =>
    by_cases hd : s.modulus slot ≤ os2ip p
    · exact .inr (.inl ⟨rfl, hd, by simp [checked, h, hd]⟩)
    · exact .inr (.inr ⟨rfl, by omega, by simp [checked, h, hd]⟩)

/-! The step. -/

theorem step_idle {s : State} (h : s.inbox = []) : step s = .next s := by
  simp [step, fetch, h]

theorem step_reset {s : State} {rest : List HostEvent} (h : s.inbox = .reset :: rest) :
    step s = .next (s.setInbox rest).resetCore := by
  simp [step, fetch, h]

theorem step_illegal {s : State} {c : Command} {rest : List HostEvent} (h : s.inbox = .command c :: rest)
    (hd : decodeCommand c = none) : step s = .next (afterError c.op 0x01 (s.setInbox rest)) := by
  simp [step, fetch, h, hd, takeError_eq, ErrorCode.code]

theorem step_run {s : State} {c : Command} {rest : List HostEvent} {i : Instr} (h : s.inbox = .command c :: rest)
    (hd : decodeCommand c = some i) : step s = exec i (s.setInbox rest) := by
  simp [step, fetch, h, hd]

/-- All that a step can be. -/
theorem step_cases (s : State) :
    (s.inbox = [] ∧ step s = .next s) ∨
    (∃ rest, s.inbox = .reset :: rest ∧ step s = .next (s.setInbox rest).resetCore) ∨
    (∃ c rest, s.inbox = .command c :: rest ∧ decodeCommand c = none ∧
      step s = .next (afterError c.op 0x01 (s.setInbox rest))) ∨
    (∃ c rest i, s.inbox = .command c :: rest ∧ decodeCommand c = some i ∧ step s = exec i (s.setInbox rest)) := by
  cases h : s.inbox with
  | nil => exact .inl ⟨rfl, step_idle h⟩
  | cons ev rest =>
    cases ev with
    | reset => exact .inr (.inl ⟨rest, rfl, step_reset h⟩)
    | command c =>
      cases hd : decodeCommand c with
      | none => exact .inr (.inr (.inl ⟨c, rest, rfl, hd, step_illegal h hd⟩))
      | some i => exact .inr (.inr (.inr ⟨c, rest, i, rfl, hd, step_run h hd⟩))

end Sys2Proof.Machine
end

