-- ==== Sys2Proof/Laws/PerInstr.lean ====
section
/-! SUPPORT. The family `HeaderFields`: the header an instruction is encoded with reads back field by field
(30_encoding.md R91). -/

namespace Sys2Proof.Laws

/-- Reading the three fields of a header built from them. -/
theorem header_fields (op arg : Byte) (len : BitVec 16) (p : Bytes) :
    (Command.mk (op ++ arg ++ len) p).op = op ∧ (Command.mk (op ++ arg ++ len) p).arg = arg ∧
      (Command.mk (op ++ arg ++ len) p).len = len := by
  refine ⟨?_, ?_, ?_⟩ <;>
  · simp only [Command.op, Command.arg, Command.len]
    ext i hi
    simp only [BitVec.getElem_extractLsb', BitVec.getLsbD_append]
    first
      | rw [if_neg (by omega), if_neg (by omega), ← BitVec.getLsbD_eq_getElem]; congr 1; omega
      | rw [if_neg (by omega), if_pos (by omega), ← BitVec.getLsbD_eq_getElem]; congr 1; omega
      | rw [if_pos (by omega), ← BitVec.getLsbD_eq_getElem]; congr 1; omega

/-- The header of `encode i` holds `i`'s opcode, `ARG` and `LEN`, and the payload is `i`'s. -/
def HeaderFields.Statement (i : Instr) : Prop :=
  (encode i).op = i.op ∧ (encode i).arg = i.fields.arg ∧ (encode i).len = i.fields.len ∧
    (encode i).payload = i.fields.payload

theorem HeaderFields.all (i : Instr) : HeaderFields.Statement i :=
  let h := header_fields i.op i.fields.arg i.fields.len i.fields.payload
  ⟨h.1, h.2.1, h.2.2, rfl⟩

theorem HeaderFields.sysNop (c : Fields) : HeaderFields.Statement (.sysNop c) := HeaderFields.all _
theorem HeaderFields.sysReset (c : Fields) : HeaderFields.Statement (.sysReset c) := HeaderFields.all _
theorem HeaderFields.sysRdsr (c : Fields) : HeaderFields.Statement (.sysRdsr c) := HeaderFields.all _
theorem HeaderFields.kpLdst (c : Fields) : HeaderFields.Statement (.kpLdst c) := HeaderFields.all _
theorem HeaderFields.kpRdst (c : Fields) : HeaderFields.Statement (.kpRdst c) := HeaderFields.all _
theorem HeaderFields.kpPerm (c : Fields) : HeaderFields.Statement (.kpPerm c) := HeaderFields.all _
theorem HeaderFields.kpRound (c : Fields) : HeaderFields.Statement (.kpRound c) := HeaderFields.all _
theorem HeaderFields.shInit (c : Fields) : HeaderFields.Statement (.shInit c) := HeaderFields.all _
theorem HeaderFields.shAbsorb (c : Fields) : HeaderFields.Statement (.shAbsorb c) := HeaderFields.all _
theorem HeaderFields.shFinal (c : Fields) : HeaderFields.Statement (.shFinal c) := HeaderFields.all _
theorem HeaderFields.rsaLd (c : Fields) : HeaderFields.Statement (.rsaLd c) := HeaderFields.all _
theorem HeaderFields.rsaModexp (c : Fields) : HeaderFields.Statement (.rsaModexp c) := HeaderFields.all _
theorem HeaderFields.rsaEncrypt (c : Fields) : HeaderFields.Statement (.rsaEncrypt c) := HeaderFields.all _
theorem HeaderFields.rsaDecrypt (c : Fields) : HeaderFields.Statement (.rsaDecrypt c) := HeaderFields.all _
theorem HeaderFields.rsaSign (c : Fields) : HeaderFields.Statement (.rsaSign c) := HeaderFields.all _
theorem HeaderFields.rsaVerify (c : Fields) : HeaderFields.Statement (.rsaVerify c) := HeaderFields.all _
theorem HeaderFields.rsaSignhash (c : Fields) : HeaderFields.Statement (.rsaSignhash c) := HeaderFields.all _
theorem HeaderFields.rsaVerifyhash (c : Fields) : HeaderFields.Statement (.rsaVerifyhash c) := HeaderFields.all _
theorem HeaderFields.aesSetkey (c : Fields) : HeaderFields.Statement (.aesSetkey c) := HeaderFields.all _
theorem HeaderFields.aesEncblk (c : Fields) : HeaderFields.Statement (.aesEncblk c) := HeaderFields.all _
theorem HeaderFields.aesDecblk (c : Fields) : HeaderFields.Statement (.aesDecblk c) := HeaderFields.all _
theorem HeaderFields.aesEncrypt (c : Fields) : HeaderFields.Statement (.aesEncrypt c) := HeaderFields.all _
theorem HeaderFields.aesDecrypt (c : Fields) : HeaderFields.Statement (.aesDecrypt c) := HeaderFields.all _
theorem HeaderFields.rc4Setkey (c : Fields) : HeaderFields.Statement (.rc4Setkey c) := HeaderFields.all _
theorem HeaderFields.rc4Ks (c : Fields) : HeaderFields.Statement (.rc4Ks c) := HeaderFields.all _
theorem HeaderFields.rc4Xor (c : Fields) : HeaderFields.Statement (.rc4Xor c) := HeaderFields.all _

end Sys2Proof.Laws
end

