-- ==== Sys2Proof/Laws/Units.lean ====
section
/-! SUPPORT. What the operations of the units compute, said once: the checks' framing conditions, lanes and cells, the
exponentiation, the sponge's loops, ECB, and the key stream. Proofs cite these instead of unfolding the loops. -/

namespace Sys2Proof.Machine

/-! The checks. -/

/-- One check and then the others. -/
theorem attempt_cons (op : Byte) (b : Bool) (e : ErrorCode) (cs : List Check) (s : State) (f : State → Result) :
    attempt op (⟨b, e⟩ :: cs) s f = if b = true then .next (afterError op e.code s) else attempt op cs s f := by
  cases b <;> rfl

theorem attempt_nil (op : Byte) (s : State) (f : State → Result) : attempt op [] s f = f s := rfl

theorem argNotZero_eq (c : Fields) : argNotZero c = decide (c.arg ≠ 0) := by
  have h : c.arg.toNat ≠ 0 ↔ c.arg ≠ 0 := by rw [ne_eq, ne_eq, BitVec.toNat_eq]; rfl
  simp only [argNotZero, h]

theorem badFrame_payload (c : Fields) : badFrame .payload c = decide (c.payload.length ≠ c.len.toNat) := rfl

theorem badFrame_output (c : Fields) : badFrame .output c = decide (c.payload ≠ []) := by
  simp [badFrame]

theorem badFrame_noPayload (c : Fields) : badFrame .noPayload c = decide (c.len ≠ 0 ∨ c.payload ≠ []) := by
  have h : c.len.toNat ≠ 0 ↔ c.len ≠ 0 := by rw [ne_eq, ne_eq, BitVec.toNat_eq]; rfl
  simp only [badFrame, h, Bool.decide_or, ne_eq, List.length_eq_zero_iff]

/-! Lanes and cells. -/

/-- Reading a lane of the lanes a function gives. -/
theorem laneAt_lanesOf (f : Nat → Nat → Lane) (x y : Nat) (hx : x < 5) (hy : y < 5) :
    laneAt (lanesOf f) x y = f x y := by
  unfold laneAt lanesOf
  simp only [Vector.getElem_ofFn]
  congr 1 <;> omega

/-- Lanes are equal where each lane is. -/
theorem lanes_ext {A B : Lanes} (h : ∀ x y, x < 5 → y < 5 → laneAt A x y = laneAt B x y) : A = B := by
  apply Vector.ext; intro i hi
  have := h (i % 5) (i / 5) (by omega) (by omega)
  have e : i % 5 + 5 * (i / 5) = i := by omega
  have e2 : i / 5 % 5 = i / 5 := by omega
  simp only [laneAt, Nat.mod_mod, e2, e] at this; exact this

/-- Reading a cell of the block a function gives. -/
theorem cell_blockOf (f : Nat → Nat → Byte) (r c : Nat) (hr : r < 4) (hc : c < 4) :
    cell (blockOf f) r c = f r c := by
  unfold cell blockOf
  rw [Vector.getElem_ofFn]
  congr 1 <;> simp only [Nat.mod_eq_of_lt hr, Nat.mod_eq_of_lt hc] <;> omega

/-- Blocks are equal where each cell is. -/
theorem block_ext (a b : Block) (h : ∀ r c, r < 4 → c < 4 → cell a r c = cell b r c) : a = b := by
  apply Vector.ext
  intro i hi
  have := h (i % 4) (i / 4) (by omega) (by omega)
  unfold cell at this
  have e : i % 4 % 4 + 4 * (i / 4 % 4) = i := by omega
  simpa only [e] using this

/-! Exponentiation (43_rsa_modexp.md R181). -/

/-- The exponent is below the power of two its bit length gives. -/
theorem lt_two_pow_bitlen (e : Nat) : e < 2 ^ bitlen e := by
  unfold bitlen; split
  · simp_all
  · exact Nat.lt_log2_self

/-- The loop multiplies by the power of the exponent's low bits. -/
theorem modexpLoop_mod (b e m : Nat) (k : Nat) :
    ∀ r, m ≠ 0 → modexpLoop b e m k r % m = (r ^ (2 ^ k) * b ^ (e % 2 ^ k)) % m := by
  induction k with
  | zero => intro r _; simp [modexpLoop, Nat.mod_one]
  | succ k ih =>
    intro r hm
    have h2 : e % 2 ^ (k + 1) = (if e.testBit k then 2 ^ k else 0) + e % 2 ^ k := by
      rw [Nat.mod_pow_succ, Nat.testBit_eq_decide_div_mod_eq]
      have : e / 2 ^ k % 2 = 0 ∨ e / 2 ^ k % 2 = 1 := by omega
      rcases this with h | h <;> simp [h, Nat.add_comm]
    simp only [modexpLoop]
    rw [ih _ hm, h2]
    have e1 : r ^ 2 ^ (k+1) = (r * r) ^ 2 ^ k := by rw [← sq, ← pow_mul]; congr 1; rw [pow_succ]; ring
    rw [e1]
    cases hb : e.testBit k
    · simp only [Bool.false_eq_true, if_false, Nat.zero_add]
      rw [Nat.mul_mod, Nat.pow_mod, Nat.mod_mod, ← Nat.pow_mod, ← Nat.mul_mod]
    · simp only [if_true]
      rw [pow_add, ← mul_assoc]
      have : (r * r % m * b % m) ^ 2 ^ k % m = ((r*r) ^ 2^k * b ^ 2 ^ k) % m := by
        rw [← Nat.pow_mod, ← mul_pow, Nat.pow_mod, Nat.mul_mod, Nat.mod_mod, ← Nat.mul_mod, ← Nat.pow_mod]
      rw [Nat.mul_mod, this, ← Nat.mul_mod]

/-- The loop's result stays below the modulus. -/
theorem modexpLoop_lt (b e m : Nat) (k : Nat) : ∀ r, 0 < m → r < m → modexpLoop b e m k r < m := by
  induction k with
  | zero => intro r _ h; exact h
  | succ k ih => intro r hm h; simp only [modexpLoop]; apply ih _ hm; split <;> exact Nat.mod_lt _ hm

/-- `MODEXP` is the power modulo the modulus, 0 for modulus 1. -/
theorem modexp_eq (b e m : Nat) (hm : 1 ≤ m) : modexp b e m = if m = 1 then 0 else b ^ e % m := by
  unfold modexp
  split
  · rfl
  · have h := modexpLoop_mod (b % m) e m (bitlen e) 1 (by omega)
    rw [Nat.mod_eq_of_lt (modexpLoop_lt _ _ _ _ _ (by omega) (by omega)), Nat.mod_eq_of_lt (lt_two_pow_bitlen e)] at h
    rw [h, one_pow, one_mul, ← Nat.pow_mod]

/-- `RSAOUT` of `MODEXP` is the power's bytes. -/
theorem rsaOut_eq (b e n pad) (hm : 1 ≤ n) : rsaOut (modexp b e n) pad n = powerOut b e n pad := by
  unfold rsaOut powerOut; rw [modexp_eq _ _ _ hm]

/-! The sponge (41_sha3_shake.md R153, R155). -/

/-- Absorbing two pieces is absorbing one after the other. -/
theorem absorb_append (r : Nat) (t : Sponge) (x y : Bytes) : absorb r t (x ++ y) = absorb r (absorb r t x) y := by
  simp [absorb]

/-- The position stays below the rate. -/
theorem absorb_pos (r : Nat) (m : Bytes) : ∀ t : Sponge, t.pos < r → (absorb r t m).pos < r := by
  induction m with
  | nil => intro t h; exact h
  | cons b m ih =>
    intro t h
    show (absorb r (absorbByte r t b) m).pos < r
    apply ih
    unfold absorbByte; simp only; split <;> simp <;> omega

/-- The rates are 72 to 168 bytes. -/
theorem rateBytes_bounds (v : Variant) : v.rateBytes ≤ 168 ∧ 72 ≤ v.rateBytes := by cases v <;> decide

/-- The squeeze loop reads byte `k` after `k / r` permutations. -/
theorem squeezeLoop_eq (r : Nat) (hr : 0 < r) (fuel : Nat) : ∀ (n : Nat) (A : Lanes), n < fuel →
   squeezeLoop r fuel n A =
     ((List.range n).map fun k => kstByte (keccakF^[k / r] A) (k % r), keccakF^[(n-1) / r] A) := by
  induction fuel with
  | zero => intro n A h; omega
  | succ fuel ih =>
    intro n A h
    simp only [squeezeLoop]
    by_cases hn : n ≤ r
    · rw [if_pos hn, Nat.min_eq_right hn]
      have : (n - 1) / r = 0 := Nat.div_eq_of_lt (by omega)
      rw [this]
      simp only [kstRead, Function.iterate_zero, id_eq, Prod.mk.injEq, and_true]
      rw [← List.range_eq_range']
      apply List.map_congr_left; intro k hk; simp only [List.mem_range] at hk
      rw [Nat.div_eq_of_lt (by omega), Nat.mod_eq_of_lt (by omega)]; rfl
    · rw [if_neg hn, Nat.min_eq_left (by omega), ih _ _ (by omega)]
      simp only [Prod.mk.injEq]
      constructor
      · have hsplit : List.range n = List.range r ++ (List.range (n - r)).map (r + ·) := by
          rw [← List.range_add]; congr 1; omega
        rw [hsplit, List.map_append, List.map_map]
        congr 1
        · simp only [kstRead]; rw [← List.range_eq_range']
          apply List.map_congr_left; intro k hk; simp only [List.mem_range] at hk
          rw [Nat.div_eq_of_lt (by omega), Nat.mod_eq_of_lt (by omega)]; rfl
        · apply List.map_congr_left; intro k hk
          simp only [Function.comp]
          rw [Nat.add_div_left _ hr, Nat.add_mod_left, ← Function.iterate_succ_apply]
      · rw [← Function.iterate_succ_apply]
        congr 1
        rw [show n - 1 = (n - r - 1) + r by omega, Nat.add_div_right _ hr]

/-- The squeezed bytes, and the lanes the last was read from. -/
theorem squeeze_eq (r : Nat) (hr : 0 < r) (n : Nat) (A : Lanes) : squeeze r n A =
    ((List.range n).map fun k => kstByte (keccakF^[k / r] A) (k % r), keccakF^[(n-1) / r] A) :=
  squeezeLoop_eq r hr _ _ _ (by omega)

/-! ECB (44_aes.md R239) and the key stream (45_rc4.md R264, R265). -/

/-- Block by block. -/
theorem ecbBlocks_eq (f : Block → Block) (n : Nat) :
    ∀ p : Bytes, ecbBlocks f n p = (List.range n).flatMap fun j => (f (blockAt p j)).toList := by
  induction n with
  | zero => intro p; rfl
  | succ n ih =>
    intro p
    rw [List.range_succ_eq_map]
    simp only [ecbBlocks, ih, List.flatMap_cons, List.flatMap_map]
    have e1 : blockOfBytes (p.take 16) = blockAt p 0 := by
      unfold blockOfBytes blockAt; congr 1; funext k
      have := k.isLt
      simp [this]
    have e2 : ∀ j, blockAt (p.drop 16) j = blockAt p (j + 1) := by
      intro j
      unfold blockAt; congr 1; funext k
      simp only [List.getD_eq_getElem?_getD, List.getElem?_drop]; congr 2; omega
    simp only [e1, e2]

/-- ECB maps each block on its own. -/
theorem ecb_eq (f : Block → Block) (p : Bytes) :
    ecb f p = (List.range (p.length / 16)).flatMap fun j => (f (blockAt p j)).toList := ecbBlocks_eq _ _ _

/-- The key stream by the stream after `k` steps. -/
theorem keyStream_eq (n : Nat) : ∀ t, keyStream n t = (streamAfter n t, streamBytes n t) := by
  induction n with
  | zero => intro t; rfl
  | succ n ih =>
    intro t
    simp only [keyStream, ih]
    refine Prod.ext ?_ ?_
    · simp only [streamAfter, Function.iterate_succ_apply]
    · simp only [streamBytes, List.range_succ_eq_map, List.map_cons, List.map_map]
      congr 1

/-- The XORed bytes and the stream after as many steps. -/
theorem xorStream_eq (p : Bytes) :
    ∀ t, xorStream p t = (streamAfter p.length t, List.zipWith (fun b k => b ^^^ k) p (streamBytes p.length t)) := by
  induction p with
  | nil => intro t; rfl
  | cons b p ih =>
    intro t
    simp only [xorStream, ih, List.length_cons]
    refine Prod.ext ?_ ?_
    · simp only [streamAfter, Function.iterate_succ_apply]
    · have : streamBytes (p.length + 1) t = (prgaStep t).2 :: streamBytes p.length (prgaStep t).1 := by
        simp only [streamBytes, List.range_succ_eq_map, List.map_cons, List.map_map]; congr 1
      rw [this]; rfl

end Sys2Proof.Machine
end

