-- ==== Sys2Proof/Tests/Slice0.lean ====
section
/-! SUPPORT. The sitting's own tests: ill-formed terms refused, the encodings of the spec decoded, single steps with
results the spec prints or gives by hand calculation, and for each obligation with hypotheses a state and operands that
meet them. Expected values come from 95, 96 and 97 (`V<n>`) or from the rule named. -/

namespace Sys2Proof.Tests

open Sys2Proof Sys2Proof.Machine

set_option maxRecDepth 100000
set_option Elab.async false

/-- The `n` bytes whose big-endian value is `v`. -/
def hex (n v : Nat) : Bytes := i2osp v n

/-- One step on the command whose bytes are `bs`. -/
def run (s : State) (bs : Bytes) : Result :=
  match commandOfBytes bs with
  | some c => step { s with inbox := [.command c] }
  | none => .next s

/-- The bytes of the last response of an outcome. -/
def response : Result → Option Bytes
  | .next t => t.outbox.getLast?.map Response.toBytes
  | _ => none

/-- The state an outcome leaves. -/
def left (r : Result) : State :=
  match r with
  | .next t => t
  | _ => State.reset

/-- An open session of SHA3-256, nothing absorbed. -/
def opened : State := { State.reset with kValid := true, shPhase := .absorb, shVar := .sha3_256 }

/-- The toy key of 97 section 1 in both slots. -/
def toyKey : State :=
  { State.reset with pubN := 3233, pubE := 17, prvN := 3233, prvD := 2753,
                     pubNV := true, pubEV := true, prvNV := true, prvDV := true }

/-- The schedule of the 128-bit key of V40. -/
def schedule40 : Schedule :=
  Vector.ofFn fun i => (expandKey .nk4 (hex 16 0x000102030405060708090a0b0c0d0e0f)).getD i.val .zero

/-- Every unit loaded, no session: the toy key, the key of V40, valid lanes, RC4 on the identity array. -/
def loaded : State :=
  { toyKey with kValid := true, aesKV := true, aesNK := .nk4, aesW := schedule40, rc4Keyed := true, rc4S := arrIdentity }

/-! Ill-formed terms, one for each check of WellFormed. -/

theorem test_too_long_payload_refused : (Instr.shAbsorb ⟨0, 0, List.replicate 65536 0⟩).wellFormed = false := by
  have h : ¬ (List.replicate 65536 (0 : Byte)).length ≤ 65535 := by rw [List.length_replicate]; omega
  rw [Instr.wellFormed, Instr.deliverable, Instr.fields, decide_eq_false h]; rfl

theorem test_illegal_arg_refused : (Instr.sysRdsr ⟨5, 0, []⟩).wellFormed = false := by decide

theorem test_misframed_refused :
    (Instr.sysNop ⟨0, 1, []⟩).wellFormed = false ∧ (Instr.sysNop ⟨0, 0, [0]⟩).wellFormed = false ∧
    (Instr.rc4Xor ⟨0, 2, [0]⟩).wellFormed = false ∧ (Instr.rc4Ks ⟨0, 4, [0]⟩).wellFormed = false := by decide

theorem test_illegal_length_refused : (Instr.aesSetkey ⟨0, 17, List.replicate 17 0⟩).wellFormed = false := by decide

theorem test_wellFormed_accepted : (Instr.aesSetkey ⟨0, 16, List.replicate 16 0⟩).wellFormed = true := by decide

/-! Decoding: one command of each constructor, its bytes written out from R91, R94 and R96. -/

theorem test_decode_sys :
    decode [0x00, 0x00, 0x00, 0x00] = .ok (.sysNop ⟨0, 0, []⟩) ∧
    decode [0x01, 0x00, 0x00, 0x00] = .ok (.sysReset ⟨0, 0, []⟩) ∧
    decode [0x02, 0x04, 0x00, 0x00] = .ok (.sysRdsr ⟨4, 0, []⟩) := ⟨rfl, rfl, rfl⟩

theorem test_decode_kp :
    decode [0x10, 0x00, 0x00, 0xc8, 0xaa] = .ok (.kpLdst ⟨0, 200, [0xaa]⟩) ∧
    decode [0x11, 0x00, 0x00, 0x00] = .ok (.kpRdst ⟨0, 0, []⟩) ∧
    decode [0x12, 0x00, 0x00, 0x00] = .ok (.kpPerm ⟨0, 0, []⟩) ∧
    decode [0x13, 0x17, 0x00, 0x00] = .ok (.kpRound ⟨23, 0, []⟩) := ⟨rfl, rfl, rfl, rfl⟩

theorem test_decode_sh :
    decode [0x20, 0x05, 0x00, 0x00] = .ok (.shInit ⟨5, 0, []⟩) ∧
    decode [0x21, 0x00, 0x00, 0x03, 0x61, 0x62, 0x63] = .ok (.shAbsorb ⟨0, 3, [0x61, 0x62, 0x63]⟩) ∧
    decode [0x22, 0x00, 0xff, 0xfe] = .ok (.shFinal ⟨0, 65534, []⟩) := ⟨rfl, rfl, rfl⟩

theorem test_decode_rsa :
    decode [0x30, 0x02, 0x00, 0x02, 0x0c, 0xa1] = .ok (.rsaLd ⟨2, 2, [0x0c, 0xa1]⟩) ∧
    decode [0x31, 0x03, 0x00, 0x01, 0x05] = .ok (.rsaModexp ⟨3, 1, [0x05]⟩) ∧
    decode [0x32, 0x01, 0x00, 0x01, 0x41] = .ok (.rsaEncrypt ⟨1, 1, [0x41]⟩) ∧
    decode [0x33, 0x00, 0x00, 0x02, 0x0a, 0xe6] = .ok (.rsaDecrypt ⟨0, 2, [0x0a, 0xe6]⟩) ∧
    decode [0x34, 0x00, 0x00, 0x01, 0x41] = .ok (.rsaSign ⟨0, 1, [0x41]⟩) ∧
    decode [0x35, 0x00, 0x00, 0x02, 0x02, 0x4c] = .ok (.rsaVerify ⟨0, 2, [0x02, 0x4c]⟩) ∧
    decode [0x36, 0x01, 0x00, 0x14, 0x3a] = .ok (.rsaSignhash ⟨1, 20, [0x3a]⟩) ∧
    decode [0x37, 0x14, 0x00, 0x2f, 0x3a] = .ok (.rsaVerifyhash ⟨20, 47, [0x3a]⟩) :=
  ⟨rfl, rfl, rfl, rfl, rfl, rfl, rfl, rfl⟩

theorem test_decode_aes :
    decode [0x40, 0x00, 0x00, 0x18, 0x01] = .ok (.aesSetkey ⟨0, 24, [0x01]⟩) ∧
    decode [0x41, 0x00, 0x00, 0x10, 0x02] = .ok (.aesEncblk ⟨0, 16, [0x02]⟩) ∧
    decode [0x42, 0x00, 0x00, 0x10, 0x03] = .ok (.aesDecblk ⟨0, 16, [0x03]⟩) ∧
    decode [0x43, 0x00, 0x00, 0x01, 0x41] = .ok (.aesEncrypt ⟨0, 1, [0x41]⟩) ∧
    decode [0x44, 0x00, 0x00, 0x20, 0x04] = .ok (.aesDecrypt ⟨0, 32, [0x04]⟩) := ⟨rfl, rfl, rfl, rfl, rfl⟩

theorem test_decode_rc4 :
    decode [0x50, 0x00, 0x00, 0x03, 0x4b, 0x65, 0x79] = .ok (.rc4Setkey ⟨0, 3, [0x4b, 0x65, 0x79]⟩) ∧
    decode [0x51, 0x00, 0x01, 0x10] = .ok (.rc4Ks ⟨0, 272, []⟩) ∧
    decode [0x52, 0x00, 0x00, 0x01, 0x50] = .ok (.rc4Xor ⟨0, 1, [0x50]⟩) := ⟨rfl, rfl, rfl⟩

theorem test_decode_rejects :
    decode [0x03, 0x00, 0x00, 0x00] = .error (.illegalCommand 0x03) ∧ decode [0x00, 0x00, 0x00] = .error .truncated :=
  ⟨rfl, rfl⟩

/-- The bits of a table word: the header at bits 31:0, the first payload byte at bits 39:32 (log 12). -/
theorem test_table_word : decodeTableWord 48 0xa10c30000002 = some (.rsaLd ⟨0, 2, [0x0c, 0xa1]⟩) := by decide

/-- V71: both ends of each range of illegal opcodes, and that `LASTERR` holds the last. -/
theorem test_illegal_opcodes :
    (∀ op ∈ [0x03#8, 0x0f, 0x14, 0x1f, 0x23, 0x2f, 0x38, 0x3f, 0x45, 0x4f, 0x53],
      response (run State.reset [op, 0x00, 0x00, 0x00]) = some [op, 0x01, 0x00, 0x00]) ∧
    response (run State.reset [0xff, 0xff, 0xff, 0xff]) = some [0xff, 0x01, 0x00, 0x00] ∧
    (left (run State.reset [0xff, 0xff, 0xff, 0xff])).lastErr = 0xff01 := by decide +kernel

/-! SYS: V70, V73. -/

theorem test_nop : response (run State.reset [0x00, 0x00, 0x00, 0x00]) = some [0x00, 0x00, 0x00, 0x00] ∧
    response (run State.reset [0x00, 0x00, 0x00, 0x01]) = some [0x00, 0x03, 0x00, 0x00] ∧
    response (run State.reset [0x00, 0x01, 0x00, 0x00]) = some [0x00, 0x02, 0x00, 0x00] := by decide +kernel

theorem test_core_id :
    response (run State.reset [0x02, 0x00, 0x00, 0x00]) = some (hex 8 0x0200000453415801) := by decide +kernel

/-- The state of V73, with the four registers it reads. -/
theorem test_status : let s : State := { loaded with shPhase := .absorb, shVar := .sha3_384, pubEV := false,
                                                     prvNV := false, prvDV := false }
    response (run s [0x02, 0x01, 0x00, 0x00]) = some (hex 8 0x020000040001310b) ∧
    response (run s [0x02, 0x03, 0x00, 0x00]) = some (hex 8 0x0200000406306800) := by decide +kernel

theorem test_reset : response (run loaded [0x01, 0x00, 0x00, 0x00]) = some [0x01, 0x00, 0x00, 0x00] ∧
    (left (run loaded [0x01, 0x00, 0x00, 0x00])).status = 0 ∧
    response (run loaded [0x01, 0x01, 0x00, 0x00]) = some [0x01, 0x02, 0x00, 0x00] := by decide +kernel

/-! KP. -/

/-- R131, R62: byte 8 of the payload is the low byte of lane 1. -/
theorem test_ldst : let t := left (run State.reset (hex 12 0x100000c80102030405060708 ++ hex 192 1))
    t.kValid = true ∧ t.lanes[0] = 0x0807060504030201 ∧ t.lanes[24] = 0x0100000000000000 := by decide +kernel

/-- R132, R62: lane 1's low byte is byte 8. -/
theorem test_rdst :
    (response (run { loaded with lanes := loaded.lanes.set 1 0x0102 } [0x11, 0x00, 0x00, 0x00])).map (List.take 14) =
      some (hex 14 0x110000c800000000000000000201) := by decide +kernel

theorem test_perm_ready : response (run loaded [0x12, 0x00, 0x00, 0x00]) = some [0x12, 0x00, 0x00, 0x00] ∧
    response (run State.reset [0x12, 0x00, 0x00, 0x00]) = some [0x12, 0x04, 0x00, 0x00] ∧
    response (run opened [0x12, 0x00, 0x00, 0x00]) = some [0x12, 0x05, 0x00, 0x00] := by decide +kernel

/-- R125: round 0 of the all-zero state leaves `RC[0]` in lane 0, and R126 on that state by hand: θ puts 1 into row
0 of column 0, 1 into column 1 and 2 into column 4. -/
theorem test_round : (left (run loaded [0x13, 0x00, 0x00, 0x00])).lanes = (Vector.replicate 25 0).set 0 1 := by
  decide +kernel

/-- R121 by hand: a single bit in lane (0,0) flips column 1 in place and column 4 one bit up. -/
theorem test_theta : theta ((Vector.replicate 25 0).set 0 1) =
    lanesOf fun x y => if x = 0 ∧ y = 0 then 1 else if x = 1 then 1 else if x = 4 then 2 else 0 := by decide +kernel

/-! SH. -/

/-- R62: byte 12 is the fifth byte from the low end of lane 1, and XORing `ff` into it changes that byte. -/
theorem test_kst_order : let A : Lanes := (Vector.replicate 25 0).set 1 0x8877665544332211
    kstByte A 12 = 0x55 ∧ (kstXor A 12 0xff)[1] = 0x887766aa44332211 := by decide +kernel

theorem test_init : let t := left (run State.reset [0x20, 0x01, 0x00, 0x00])
    t.kValid = true ∧ t.shPhase = .absorb ∧ t.shVar = .sha3_256 ∧ t.shPos = 0 := by decide +kernel

/-- V2, after the absorb. -/
theorem test_absorb : let t := left (run opened [0x21, 0x00, 0x00, 0x03, 0x61, 0x62, 0x63])
    t.lanes = (Vector.replicate 25 0).set 0 0x636261 ∧ t.shPos = 3 := by decide +kernel

/-- V2, after the padding. -/
theorem test_pad : padBlock .sha3_256 ⟨(Vector.replicate 25 0).set 0 0x636261, 3⟩ =
    ((Vector.replicate 25 0).set 0 0x6636261).set 16 0x8000000000000000 := by decide +kernel

/-- V20: no session, the wrong digest length, and one that passes. -/
theorem test_final : response (run State.reset [0x22, 0x00, 0x00, 0x20]) = some [0x22, 0x05, 0x00, 0x00] ∧
    response (run opened [0x22, 0x00, 0x00, 0x1f]) = some [0x22, 0x03, 0x00, 0x00] ∧
    (left (run opened [0x22, 0x00, 0x00, 0x20])).shPhase = .idle := by decide +kernel

/-! RSA: V30 to V32. -/

theorem test_ld : let t := left (run State.reset [0x30, 0x02, 0x00, 0x02, 0x0c, 0xa1])
    t.prvN = 3233 ∧ t.prvNV = true ∧ t.pubNV = false := by decide +kernel

theorem test_modexp : response (run toyKey [0x31, 0x00, 0x00, 0x02, 0x0c, 0xe2]) = some (hex 6 0x310000020ae6) ∧
    response (run toyKey [0x31, 0x03, 0x00, 0x02, 0x0a, 0xe6]) = some (hex 6 0x310000020041) := by decide +kernel

theorem test_modexp_degenerate :
    response (run { toyKey with pubN := 1, pubE := 3 } [0x31, 0x00, 0x00, 0x01, 0x05]) = some (hex 5 0x3100000100) ∧
    response (run { toyKey with pubN := 0 } [0x31, 0x00, 0x00, 0x01, 0x05]) = some (hex 4 0x31140000) ∧
    response (run { toyKey with pubN := 7, pubE := 0 } [0x31, 0x00, 0x00, 0x01, 0x00]) = some (hex 5 0x3100000101) := by
  decide +kernel

theorem test_encrypt : response (run toyKey [0x32, 0x00, 0x00, 0x01, 0x41]) = some (hex 6 0x320000020ae6) ∧
    response (run toyKey [0x32, 0x00, 0x00, 0x02, 0x0c, 0xa1]) = some (hex 4 0x32100000) ∧
    response (run toyKey [0x32, 0x01, 0x00, 0x01, 0x01]) = some (hex 6 0x320000020001) := by decide +kernel

theorem test_decrypt : response (run toyKey [0x33, 0x00, 0x00, 0x02, 0x0a, 0xe6]) = some (hex 5 0x3300000141) := by
  decide +kernel

theorem test_sign : response (run toyKey [0x34, 0x00, 0x00, 0x01, 0x41]) = some (hex 6 0x34000002024c) := by
  decide +kernel

theorem test_verify : response (run toyKey [0x35, 0x00, 0x00, 0x02, 0x02, 0x4c]) = some (hex 5 0x3500000141) := by
  decide +kernel

/-- A 20-byte digest of value 65 signs as `RSA.SIGN` of 65 does (R191, V30); 19 bytes are too few (V35). -/
theorem test_signhash : response (run toyKey (hex 4 0x36000014 ++ hex 20 0x41)) = some (hex 6 0x36000002024c) ∧
    response (run toyKey (hex 4 0x36000013 ++ hex 19 0x41)) = some (hex 4 0x36110000) := by decide +kernel

/-- The signature 588 of the digest 65 is valid, of 66 not (R192, V30). -/
theorem test_verifyhash :
    response (run toyKey (hex 4 0x37140016 ++ hex 20 0x41 ++ hex 2 0x024c)) = some (hex 5 0x3700000101) ∧
    response (run toyKey (hex 4 0x37140016 ++ hex 20 0x42 ++ hex 2 0x024c)) = some (hex 5 0x3700000100) := by
  decide +kernel

/-! AES: V40, V43, V45, V46, V49. -/

theorem test_setkey : let t := left (run State.reset (hex 4 0x40000010 ++ hex 16 0x2b7e151628aed2a6abf7158809cf4f3c))
    t.aesKV = true ∧ t.aesNK = .nk4 ∧ t.aesW[4] = ⟨0xa0, 0xfa, 0xfe, 0x17⟩ ∧ t.aesW[40] = ⟨0xd0, 0x14, 0xf9, 0xa8⟩ := by
  decide +kernel

/-- The SubWord-only step of a 256-bit key: `W[12]` of V43. -/
theorem test_setkey_256 :
    (expandKey .nk8 (hex 32 0x603deb1015ca71be2b73aef0857d77811f352c073b6108d72d9810a30914dff4)).getD 12 .zero =
      ⟨0xa8, 0xb0, 0x9c, 0x1a⟩ := by decide +kernel

theorem test_encblk : response (run loaded (hex 4 0x41000010 ++ hex 16 0x00112233445566778899aabbccddeeff)) =
    some (hex 4 0x41000010 ++ hex 16 0x69c4e0d86a7b0430d8cdb78070b4c55a) := by decide +kernel

theorem test_decblk : response (run loaded (hex 4 0x42000010 ++ hex 16 0x69c4e0d86a7b0430d8cdb78070b4c55a)) =
    some (hex 4 0x42000010 ++ hex 16 0x00112233445566778899aabbccddeeff) := by decide +kernel

theorem test_aes_encrypt : response (run loaded [0x43, 0x00, 0x00, 0x01, 0x41]) =
    some (hex 4 0x43000010 ++ hex 16 0xdccc6f2b042ab165aab7eceea77c196c) := by decide +kernel

theorem test_aes_decrypt :
    response (run loaded (hex 4 0x44000010 ++ hex 16 0x954f64f2e4e86e9eee82d20216684899)) = some (hex 4 0x44000000) := by
  decide +kernel

/-- V49: pads of 1 and 2, and the four bad paddings. -/
theorem test_unpad : pkcs7Unpad (hex 16 0x01) = some (hex 15 0) ∧ pkcs7Unpad (hex 16 0x0202) = some (hex 14 0) ∧
    pkcs7Unpad (hex 16 0x00) = none ∧ pkcs7Unpad (hex 16 0x11) = none ∧ pkcs7Unpad (hex 16 0x030203) = none ∧
    pkcs7Unpad (hex 16 0x00112233445566778899aabbccddeeff) = none := by decide +kernel

/-- V45: `MixColumns` on four columns and `ShiftRows`. -/
theorem test_round_steps :
    (mixColumns (blockOfBytes (hex 16 0xdb135345f20a225c01010101c6c6c6c6))).toList =
      hex 16 0x8e4da1bc9fdc589d01010101c6c6c6c6 ∧
    (shiftRows (blockOfBytes (hex 16 0x000102030405060708090a0b0c0d0e0f))).toList =
      hex 16 0x00050a0f04090e03080d02070c01060b ∧ gmul 0x57 0x83 = 0xc1 ∧ sbox 0x53 = 0xed := by decide +kernel

/-! RC4. -/

/-- R261 by hand, the first two swaps for the key "Key": `j` is 0x4b, then 0x4b + 1 + 0x65. -/
theorem test_ksa_steps : let t := (List.range 2).foldl (ksaStep [0x4b, 0x65, 0x79]) (arrIdentity, 0)
    t.2 = 0xb1 ∧ t.1[0] = 0x4b ∧ t.1[0x4b] = 0 ∧ t.1[1] = 0xb1 ∧ t.1[0xb1] = 1 := by decide +kernel

/-- R262, V63: the indices and the flag; 0 bytes and 257 bytes are no key. -/
theorem test_rc4_setkey : let t := left (run { loaded with rc4I := 3, rc4Keyed := false } [0x50, 0x00, 0x00, 0x01, 0x4b])
    t.rc4I = 0 ∧ t.rc4J = 0 ∧ t.rc4Keyed = true ∧
    response (run loaded [0x50, 0x00, 0x00, 0x00]) = some [0x50, 0x12, 0x00, 0x00] ∧
    response (run loaded (hex 4 0x50000101 ++ hex 257 0)) = some [0x50, 0x12, 0x00, 0x00] := by decide +kernel

/-- R263 by hand on the identity array: the bytes are 2, 5, 7. -/
theorem test_ks : response (run loaded [0x51, 0x00, 0x00, 0x03]) = some (hex 7 0x51000003020507) ∧
    (left (run loaded [0x51, 0x00, 0x00, 0x03])).rc4Ij = 0x0503 := by decide +kernel

/-- R265: the same bytes, XORed in. -/
theorem test_xor : response (run loaded [0x52, 0x00, 0x00, 0x03, 0xff, 0x00, 0x05]) = some (hex 7 0x52000003fd0502) := by
  decide +kernel

/-! The assembler (R100, R101). -/

theorem test_assemble :
    assembleLine "  RSA.LD PRV.N, hex\"0ca1\" ; toy".toList = some [.rsaLd ⟨2, 2, [0x0c, 0xa1]⟩] ∧
    assembleLine "SH.FINAL 32".toList = some [.shFinal ⟨0, 32, []⟩] ∧ assembleLine "HLT".toList = none := by
  decide +kernel

/-! Witnesses: for each obligation with hypotheses, by its name, a state and operands that meet them, at the ends of the
ranges its clauses speak of. -/

/-- `ShAbsorbAbsorbs`, `ShFinalPadsAndSqueezes`, `EveryCommandAnswersOnce`: an open session at the last position. -/
theorem witness_session : SessionInv { opened with shPos := 135 } ∧ SessionInv opened ∧ SessionInv State.reset :=
  ⟨fun _ => ⟨rfl, by decide⟩, fun _ => ⟨rfl, by decide⟩, fun h => (nomatch h)⟩

/-- The toy registers are below the capacity. -/
theorem witness_rsa_registers (s : State) (h : s.pubN = 3233 ∧ s.pubE = 17 ∧ s.prvN = 3233 ∧ s.prvD = 2753) :
    RsaInv s := by
  have hm : 256 ^ 2 ≤ 256 ^ Config.rsaMaxBytes :=
    Nat.pow_le_pow_right (by decide) (le_trans (by decide) Config.rsaMaxBytes_ge)
  obtain ⟨h1, h2, h3, h4⟩ := h
  rw [RsaInv, h1, h2, h3, h4]
  refine ⟨?_, ?_, ?_, ?_⟩ <;> exact lt_of_lt_of_le (by norm_num) hm

/-- `loaded` with a session open. -/
def loadedOpen : State := { loaded with shPhase := .absorb, shVar := .sha3_256 }

/-- A command of each constructor that its state accepts. -/
def acceptedCommands : List (Instr × State) :=
  List.flatten [[(.sysNop ⟨0, 0, []⟩, loaded), (.sysReset ⟨0, 0, []⟩, loaded), (.sysRdsr ⟨4, 0, []⟩, loaded)],
    [(.kpLdst ⟨0, 200, hex 200 0⟩, loaded), (.kpRdst ⟨0, 0, []⟩, loaded), (.kpPerm ⟨0, 0, []⟩, loaded),
   (.kpRound ⟨23, 0, []⟩, loaded)],
    [(.shInit ⟨5, 0, []⟩, loadedOpen), (.shAbsorb ⟨0, 1, [7]⟩, loadedOpen), (.shFinal ⟨0, 32, []⟩, loadedOpen)],
    [(.rsaLd ⟨3, 1, [7]⟩, loaded), (.rsaModexp ⟨3, 1, [7]⟩, loaded), (.rsaEncrypt ⟨1, 2, [0x0c, 0xa0]⟩, loaded),
   (.rsaDecrypt ⟨1, 2, [0x0c, 0xa0]⟩, loaded), (.rsaSign ⟨1, 2, [0x0c, 0xa0]⟩, loaded),
   (.rsaVerify ⟨1, 2, [0x0c, 0xa0]⟩, loaded), (.rsaSignhash ⟨1, 20, hex 20 1⟩, loaded),
   (.rsaVerifyhash ⟨64, 64, hex 64 1⟩, loaded)],
    [(.aesSetkey ⟨0, 32, hex 32 1⟩, loaded), (.aesEncblk ⟨0, 16, hex 16 1⟩, loaded),
   (.aesDecblk ⟨0, 16, hex 16 1⟩, loaded), (.aesEncrypt ⟨0, 0, []⟩, loaded),
   (.aesDecrypt ⟨0, 16, hex 16 0x954f64f2e4e86e9eee82d20216684899⟩, loaded)],
    [(.rc4Setkey ⟨0, 1, [0]⟩, loaded), (.rc4Ks ⟨0, 65535, []⟩, loaded), (.rc4Xor ⟨0, 0, []⟩, loaded)]]

/-- `AcceptedCommandsComplete`: all 26 constructors, once each, in states that meet its two invariants. -/
theorem witness_accepted :
    (acceptedCommands.map fun p => p.1.op) = opcodeTable.map OpcodeRow.op ∧
    (∀ p ∈ acceptedCommands, (p.1.argLegal && p.1.framed && p.1.lenLegal && flagsReady p.2 p.1 && dataReady p.2 p.1) =
      true) := by decide +kernel

theorem witness_accepted_invariants : (SessionInv loaded ∧ RsaInv loaded) ∧ SessionInv loadedOpen ∧ RsaInv loadedOpen :=
  ⟨⟨fun h => (nomatch h), witness_rsa_registers _ ⟨rfl, rfl, rfl, rfl⟩⟩, fun _ => ⟨rfl, by decide⟩,
    witness_rsa_registers _ ⟨rfl, rfl, rfl, rfl⟩⟩

/-- `EncodeInvertsDecode` and `StepRunsDecodedCommand`: bytes that decode, and a state whose next delivery they are;
and one with nothing delivered. -/
theorem witness_decodes :
    decode (Command.toBytes ⟨0x02040000, []⟩) = .ok (.sysRdsr ⟨4, 0, []⟩) ∧
    ({ loaded with inbox := [.command ⟨0x02040000, []⟩, .reset] } : State).inbox =
      .command ⟨0x02040000, []⟩ :: [.reset] ∧ loaded.inbox = [] := ⟨by rfl, rfl, rfl⟩

/-- `UnframedStreamIsCut`: a command of each format with as many payload bytes as R99 takes, `LEN` not 0 in formats `N`
and `O`, and a header with an illegal opcode. -/
theorem witness_unframed :
    ((Instr.shAbsorb ⟨0, 2, [1, 2]⟩).format = .payload ∧ [(1 : Byte), 2].length = (2 : BitVec 16).toNat) ∧
    ((Instr.sysNop ⟨9, 65535, []⟩).format = .noPayload ∧ (Instr.sysNop ⟨9, 65535, []⟩).fields.payload.length = 0) ∧
    ((Instr.rc4Ks ⟨0, 9, []⟩).format = .output ∧ (Instr.rc4Ks ⟨0, 9, []⟩).fields.payload.length = 0) ∧
    decodeCommand ⟨0x53000009, []⟩ = none := by decide

/-- R99: a format `N` header with `LEN` 3 takes no payload byte of the stream behind it. -/
theorem test_unframed_no_payload :
    nextCommand [0x00, 0x00, 0x00, 0x03, 0x02, 0x00, 0x00, 0x00] =
      some (⟨0x00000003, []⟩, [0x02, 0x00, 0x00, 0x00]) := by decide

/-- `IllegalOpcodesAnswerIllegalCommand`: a delivery with an illegal opcode, at an end of a range. -/
theorem witness_illegal_delivery :
    ({ loaded with inbox := [.command ⟨0x14ffffff, [1]⟩] } : State).inbox = .command ⟨0x14ffffff, [1]⟩ :: [] ∧
    Command.op ⟨0x14ffffff, [1]⟩ = 0x14 := ⟨rfl, by decide⟩

/-- `IllegalArgumentsAreRefused`: the first illegal value of each range of R95. -/
theorem witness_illegal_arguments : ∀ i ∈ [Instr.sysNop ⟨1, 0, []⟩, .sysRdsr ⟨5, 0, []⟩, .kpRound ⟨24, 0, []⟩,
    .shInit ⟨6, 0, []⟩, .rsaLd ⟨4, 0, []⟩, .rsaModexp ⟨4, 0, []⟩, .rsaSign ⟨2, 0, []⟩, .rsaVerifyhash ⟨19, 65, []⟩,
    .rsaVerifyhash ⟨65, 65, []⟩, .aesSetkey ⟨1, 16, []⟩, .rc4Xor ⟨255, 0, []⟩], i.argLegal = false := by decide

/-- `IllegalLengthsAreRefused`: broken frames and the first illegal lengths of R96, for each of the three answers. -/
theorem witness_illegal_lengths : ∀ i ∈ [Instr.sysNop ⟨0, 1, []⟩, .rc4Ks ⟨0, 4, [1]⟩, .kpLdst ⟨0, 199, hex 199 0⟩,
    .rsaSignhash ⟨0, 19, hex 19 0⟩, .rsaSignhash ⟨0, 65, hex 65 0⟩, .rsaVerifyhash ⟨20, 19, hex 19 0⟩,
    .aesSetkey ⟨0, 15, hex 15 0⟩, .aesSetkey ⟨0, 33, hex 33 0⟩, .aesDecrypt ⟨0, 0, []⟩, .aesDecrypt ⟨0, 17, hex 17 0⟩,
    .rc4Setkey ⟨0, 0, []⟩, .rc4Setkey ⟨0, 257, hex 257 0⟩],
    i.argLegal = true ∧ (i.framed && i.lenLegal) = false := by decide +kernel

/-- `UnreadyCommandsAreRefused`: the sponge's phase wrong either way, and a flag missing. -/
theorem witness_unready : ∀ p ∈ [(Instr.shAbsorb ⟨0, 0, []⟩, State.reset), (.shFinal ⟨0, 32, []⟩, loaded),
    (.kpPerm ⟨0, 0, []⟩, opened), (.kpRound ⟨0, 0, []⟩, State.reset), (.kpRdst ⟨0, 0, []⟩, State.reset),
    (.rsaEncrypt ⟨0, 0, []⟩, State.reset), (.aesEncrypt ⟨0, 0, []⟩, State.reset), (.rc4Ks ⟨0, 1, []⟩, State.reset)],
    p.1.argLegal = true ∧ p.1.framed = true ∧ p.1.lenLegal = true ∧ flagsReady p.2 p.1 = false := by decide +kernel

/-- `UnfitDataIsRefused`: each of its four answers. -/
theorem witness_unfit : ∀ p ∈ [(Instr.shFinal ⟨0, 31, []⟩, opened), (.rsaModexp ⟨0, 0, []⟩, { toyKey with pubN := 0 }),
    (.rsaEncrypt ⟨0, 2, [0x0c, 0xa1]⟩, toyKey), (.aesDecrypt ⟨0, 16, hex 16 0xcf931c974f3a9c42f7d5575c7a7b0d35⟩, loaded)],
    p.1.argLegal = true ∧ p.1.framed = true ∧ p.1.lenLegal = true ∧ flagsReady p.2 p.1 = true ∧
      dataReady p.2 p.1 = false := by decide +kernel

/-- `SpongeAndStreamRegisters`, `KpPermAndRoundPermute`, `KpLdstThenRdstAnswersPayload`: the flags each clause asks
for, and a payload of 200 bytes. -/
theorem witness_flags : opened.shPhase = .absorb ∧ State.reset.shPhase = .idle ∧ State.reset.rc4Keyed = false ∧
    loaded.rc4Keyed = true ∧ loaded.shPhase = .idle ∧ loaded.kValid = true ∧ (hex 200 7).length = 200 :=
  ⟨rfl, rfl, rfl, rfl, rfl, rfl, by simp [hex]⟩

/-- `AbsorbIgnoresCuts`: an open session and the longest two pieces. -/
theorem witness_pieces : SessionInv opened ∧ opened.shPhase = .absorb ∧
    (List.replicate 65534 (0 : Byte) ++ [1]).length ≤ 65535 := by
  refine ⟨fun _ => ⟨rfl, by decide⟩, rfl, ?_⟩
  rw [List.length_append, List.length_replicate]; rfl

/-- `ResetsClearFlags`, `ResetsGiveTheResetView`: the operands of their clauses, and a delivered external reset. -/
theorem witness_reset : (Fields.mk 1 0 []).arg ≠ 0 ∧ ((Fields.mk 0 1 []).arg = 0 ∧ (Fields.mk 0 1 []).len ≠ 0) ∧
    (Fields.mk 0 0 [9]).payload ≠ [] ∧
    ((Fields.mk 0 0 []).arg = 0 ∧ (Fields.mk 0 0 []).len = 0 ∧ (Fields.mk 0 0 []).payload = []) ∧
    ({ loaded with inbox := [.reset] } : State).inbox = .reset :: [] := by
  refine ⟨by decide, ⟨rfl, by decide⟩, by decide, ⟨rfl, rfl, rfl⟩, rfl⟩

/-- `ShInitOpensSession`: an illegal code, and both ends of the legal ones. -/
theorem witness_variants : (5 : Byte) < 6 ∧ Variant.sha3_224.code = (0 : Byte).toNat ∧ Variant.shake256.code = (5 : Byte).toNat :=
  ⟨by decide, rfl, rfl⟩

/-- `HashCommandsComputeSponge`: a fixed digest length, and the ends of the free range for SHAKE. -/
theorem witness_digest_lengths : Variant.sha3_512.digestBytes = some 64 ∧ Variant.shake128.digestBytes = none ∧
    0 ≤ 65535 ∧ 65535 ≤ 65535 := ⟨rfl, rfl, by decide, by decide⟩

/-- `RsaRoundTrip`: the toy key and its largest message. -/
theorem witness_round_trip : RsaInv toyKey ∧ Nat.Prime 61 ∧ Nat.Prime 53 ∧ toyKey.pubN = 61 * 53 ∧
    toyKey.prvN = 61 * 53 ∧ toyKey.pubE * toyKey.prvD % ((61 - 1) * (53 - 1)) = 1 % ((61 - 1) * (53 - 1)) ∧
    toyKey.pubNV = true ∧ toyKey.pubEV = true ∧ toyKey.prvNV = true ∧ toyKey.prvDV = true ∧
    (1 : Byte) ≤ 1 ∧ (hex 2 0x0ca0).length ≤ Config.rsaMaxBytes ∧ os2ip (hex 2 0x0ca0) < 61 * 53 :=
  ⟨witness_rsa_registers _ ⟨rfl, rfl, rfl, rfl⟩, by norm_num, by norm_num, rfl, rfl, by decide, rfl, rfl, rfl, rfl,
    by decide, le_trans (by decide) Config.rsaMaxBytes_ge, by decide +kernel⟩

/-- `AesSetkeyExpandsKey`: each clause, the three sizes and the lengths beside them. -/
theorem witness_keys : (Fields.mk 1 16 []).arg ≠ 0 ∧ (Fields.mk 0 16 []).payload.length ≠ (Fields.mk 0 16 []).len.toNat ∧
    ((hex 17 0).length = (17 : BitVec 16).toNat ∧ (17 : BitVec 16) ≠ 16 ∧ (17 : BitVec 16) ≠ 24 ∧ (17 : BitVec 16) ≠ 32) ∧
    (∀ k : KeySize, (hex (4 * k.nk) 1).length = (BitVec.ofNat 16 (4 * k.nk)).toNat ∧
      (BitVec.ofNat 16 (4 * k.nk)).toNat = 4 * k.nk) := by
  refine ⟨by decide, by decide, by decide +kernel, fun k => ?_⟩
  cases k <;> decide +kernel

/-- `AesMessageRoundTrip`: a loaded key and the longest message. -/
theorem witness_message : loaded.aesKV = true ∧ (List.replicate 65519 (0 : Byte)).length ≤ 65519 :=
  ⟨rfl, by rw [List.length_replicate]⟩

/-- `Rc4Steps`, `Rc4XorIsItsOwnInverse`: a key, and two keyed states at one stream position. -/
theorem witness_stream : [(0x4b : Byte)] ≠ [] ∧ ({ loaded with lastErr := 1 } : State).stream = loaded.stream ∧
    ({ loaded with lastErr := 1 } : State).rc4Keyed = true ∧ (List.replicate 65535 (0 : Byte)).length ≤ 65535 :=
  ⟨by decide, rfl, rfl, by rw [List.length_replicate]⟩

/-- `IntegerConversions`, `KeccakStepFormulas`, `AesRoundSteps`, `KstXorChangesOneByte`: the last value of each range. -/
theorem witness_ranges : 65535 < 256 ^ 2 ∧ (hex 8 1).length = 8 ∧ 4 < 5 ∧ 23 < 24 ∧ 63 < 64 ∧ 3 < 4 ∧ 14 < 15 ∧
    199 < 200 ∧ 24 < 25 ∧ 0 + 200 ≤ 200 ∧ 200 + 0 ≤ 200 := by decide +kernel

/-- `EveryStepKeepsInvariant`: a state with a session open at its last position meets the invariant. -/
theorem witness_invariant : Inv { opened with shPos := 135, lastErr := 0x2105 } := by
  refine ⟨fun _ => ⟨rfl, by decide⟩, ?_, fun h => (nomatch h), fun h => (nomatch h), ?_, fun r h => (nomatch h)⟩
  · have : 0 < 256 ^ Config.rsaMaxBytes := Nat.pow_pos (by decide)
    exact ⟨this, this, this, this⟩
  · exact .inr ⟨0x21, .badPhase, by decide⟩

/-- `UnwrittenRegistersAreInvisible`: two different states that look the same. -/
theorem witness_same_view : SameView State.reset { State.reset with pubN := 5, rc4I := 1, shPos := 200 } ∧
    State.reset.pubN ≠ 5 := by
  refine ⟨?_, by decide⟩
  constructor <;> first | rfl | exact fun h => nomatch h

/-- `OnlyListedCommandsWrite`: a command that goes on. -/
theorem witness_goes_on : exec (.sysNop ⟨0, 0, []⟩) loaded = .next (afterOk 0x00 [] loaded) := by rfl

end Sys2Proof.Tests
end

section
/-! The conversions between byte strings and naturals (00_scope.md R11): each function's value as a sum or a digit, and
that the pairs undo each other. -/

namespace Sys2Proof.Machine

/-! Big-endian: `OS2IP` and `I2OSP`. -/

/-- `OS2IP` as the sum R11 writes: byte `k` weighs 256 to the number of bytes after it. -/
theorem os2ip_eq_sum (p : Bytes) :
    os2ip p = ∑ k ∈ Finset.range p.length, (p.getD k 0).toNat * 256 ^ (p.length - 1 - k) := by
  induction p using List.reverseRecOn with
  | nil => rfl
  | append_singleton p b ih =>
    have hlast : (p ++ [b]).getD p.length 0 = b := by simp
    have hfirst : ∀ k ∈ Finset.range p.length, ((p ++ [b]).getD k 0).toNat * 256 ^ (p.length + 1 - 1 - k) =
        (p.getD k 0).toNat * 256 ^ (p.length - 1 - k) * 256 := by
      intro k hk
      have hlt : k < p.length := Finset.mem_range.1 hk
      rw [List.getD_append _ _ _ _ hlt, show p.length + 1 - 1 - k = (p.length - 1 - k) + 1 by omega, pow_succ,
        Nat.mul_assoc]
    rw [os2ip_append_singleton, ih, List.length_append, List.length_singleton, Finset.sum_range_succ, hlast,
      Finset.sum_congr rfl hfirst, Finset.sum_mul]
    simp

/-- `I2OSP` keeps the value modulo `256^n`. -/
theorem os2ip_i2osp (n : Nat) : ∀ v, os2ip (i2osp v n) = v % 256 ^ n := by
  induction n with
  | zero => intro v; simp [Nat.mod_one]
  | succ n ih =>
    intro v
    rw [i2osp_succ, os2ip_append_singleton, ih, BitVec.toNat_ofNat, pow_succ' 256 n, Nat.mod_mul]
    omega

/-- `I2OSP` of a string's value at the string's length gives the string back. -/
theorem i2osp_os2ip (p : Bytes) : i2osp (os2ip p) p.length = p := by
  induction p using List.reverseRecOn with
  | nil => rfl
  | append_singleton p b ih =>
    have hhigh : (os2ip p * 256 + b.toNat) / 256 = os2ip p := by have := b.isLt; omega
    have hlow : BitVec.ofNat 8 (os2ip p * 256 + b.toNat) = b := by
      apply BitVec.eq_of_toNat_eq
      have := b.isLt
      rw [BitVec.toNat_ofNat]
      omega
    rw [os2ip_append_singleton, List.length_append, List.length_singleton, i2osp_succ, hhigh, hlow, ih]

/-! `bytelen` is the least `n ≥ 1` with `v < 256^n`. -/

theorem bytelen_pos (v : Nat) : 1 ≤ bytelen v := by
  unfold bytelen; split <;> omega

/-- A value fits `n ≥ 1` bytes just where its byte length is at most `n`. -/
theorem bytelen_le_iff {v n : Nat} (hn : 1 ≤ n) : bytelen v ≤ n ↔ v < 256 ^ n := by
  by_cases hv : v = 0
  · simp [bytelen, hv, hn]
  · have hpow : 256 ^ n = 2 ^ (8 * n) := by rw [pow_mul]; norm_num
    rw [hpow, ← Nat.log2_lt hv, bytelen, if_neg hv]
    omega

/-! Little-endian: `LE64` and its inverse. -/

/-- Little-endian accumulation as a sum: byte `k` weighs `256^k`. -/
theorem foldr_bytes_eq_sum (p : Bytes) : p.foldr (fun b acc => b.toNat + 256 * acc) 0 =
    ∑ k ∈ Finset.range p.length, (p.getD k 0).toNat * 256 ^ k := by
  induction p with
  | nil => rfl
  | cons b p ih =>
    rw [List.foldr_cons, ih, List.length_cons, Finset.sum_range_succ', Finset.mul_sum, Nat.add_comm]
    simp only [List.getD_cons_succ, List.getD_cons_zero, pow_zero, Nat.mul_one, pow_succ']
    congr 1
    exact Finset.sum_congr rfl fun k _ => Nat.mul_left_comm _ _ _

/-- `n` bytes give a value below `256^n`. -/
theorem foldr_bytes_lt (p : Bytes) : p.foldr (fun b acc => b.toNat + 256 * acc) 0 < 256 ^ p.length := by
  induction p with
  | nil => simp
  | cons b p ih =>
    rw [List.foldr_cons, List.length_cons, pow_succ']
    have := b.isLt
    omega

/-- Digit `k` of the value is byte `k`. -/
theorem foldr_bytes_digit (p : Bytes) :
    ∀ k, p.foldr (fun b acc => b.toNat + 256 * acc) 0 / 256 ^ k % 256 = (p.getD k 0).toNat := by
  induction p with
  | nil => intro k; simp
  | cons b p ih =>
    have hb := b.isLt
    intro k
    cases k with
    | zero => rw [List.foldr_cons, List.getD_cons_zero]; omega
    | succ k =>
      rw [List.foldr_cons, List.getD_cons_succ, ← ih k, pow_succ', ← Nat.div_div_eq_div_mul]
      congr 2
      omega

/-- A number's `n` low base-256 digits make up the number modulo `256^n`. -/
theorem sum_digits_eq_mod (v n : Nat) : ∑ k ∈ Finset.range n, v / 256 ^ k % 256 * 256 ^ k = v % 256 ^ n := by
  induction n with
  | zero => simp [Nat.mod_one]
  | succ n ih => rw [Finset.sum_range_succ, ih, Nat.mod_pow_succ, Nat.mul_comm (256 ^ n)]

@[simp] theorem length_le64inv (v : Lane) : (le64inv v).length = 8 := by
  simp [le64inv]

/-- Byte `k` of a lane is digit `k` of its value (R62). -/
theorem toNat_extract_byte (v : Lane) (k : Nat) : (v.extractLsb' (8 * k) 8).toNat = v.toNat / 256 ^ k % 256 := by
  rw [BitVec.extractLsb'_toNat, Nat.shiftRight_eq_div_pow, pow_mul]
  rfl

theorem getElem_le64inv (v : Lane) (k : Nat) (hk : k < (le64inv v).length) :
    (le64inv v)[k] = v.extractLsb' (8 * k) 8 := by
  simp [le64inv]

/-- `LE64` of eight bytes is their little-endian value. -/
theorem toNat_le64 {p : Bytes} (hp : p.length = 8) :
    (le64 p).toNat = p.foldr (fun b acc => b.toNat + 256 * acc) 0 := by
  have hlt := foldr_bytes_lt p
  rw [hp] at hlt
  rw [le64, List.take_of_length_le hp.le, BitVec.toNat_ofNat, Nat.mod_eq_of_lt (by omega)]

theorem toNat_le64_eq_sum {p : Bytes} (hp : p.length = 8) :
    (le64 p).toNat = ∑ k ∈ Finset.range 8, (p.getD k 0).toNat * 256 ^ k := by
  rw [toNat_le64 hp, foldr_bytes_eq_sum, hp]

theorem le64inv_le64 {p : Bytes} (hp : p.length = 8) : le64inv (le64 p) = p := by
  apply List.ext_getElem (by simp [hp])
  intro k hk hk'
  apply BitVec.eq_of_toNat_eq
  rw [getElem_le64inv, toNat_extract_byte, toNat_le64 hp, foldr_bytes_digit, List.getD_eq_getElem _ _ hk']

theorem le64_le64inv (v : Lane) : le64 (le64inv v) = v := by
  apply BitVec.eq_of_toNat_eq
  have hdigit : ∀ k ∈ Finset.range 8, ((le64inv v).getD k 0).toNat * 256 ^ k = v.toNat / 256 ^ k % 256 * 256 ^ k := by
    intro k hk
    have hlt : k < (le64inv v).length := by simpa using hk
    rw [List.getD_eq_getElem _ _ hlt, getElem_le64inv, toNat_extract_byte]
  rw [toNat_le64_eq_sum (length_le64inv v), Finset.sum_congr rfl hdigit, sum_digits_eq_mod]
  exact Nat.mod_eq_of_lt v.isLt

/-- Settles O31: the values are the sums, and each pair of conversions undoes itself. -/
theorem integerConversions : Obligations.IntegerConversions := by
  unfold Obligations.IntegerConversions
  refine ⟨os2ip_eq_sum, fun v => ⟨bytelen_pos v, ?least, ?bound⟩, fun v n => ⟨length_i2osp n v, ?value⟩, i2osp_os2ip,
    fun p hp => ⟨toNat_le64_eq_sum hp, le64inv_le64 hp⟩, fun v => ⟨length_le64inv v, le64_le64inv v⟩⟩
  case least => exact (bytelen_le_iff (bytelen_pos v)).1 le_rfl
  case bound => exact fun n hn => (bytelen_le_iff hn).2
  case value => exact fun hv => by rw [os2ip_i2osp, Nat.mod_eq_of_lt hv]

end Sys2Proof.Machine
end

section
/-! The byte serialisation of a command (30_encoding.md R94) read back, and what the step makes of it (00_scope.md R3). -/

namespace Sys2Proof.Machine

/-- The four bytes of a header put together again are the header. -/
theorem headerOf_extract_bytes (h : BitVec 32) :
    headerOf (h.extractLsb' 24 8) (h.extractLsb' 16 8) (h.extractLsb' 8 8) (h.extractLsb' 0 8) = h := by
  unfold headerOf
  ext i hi
  simp only [BitVec.getElem_append, BitVec.getElem_extractLsb']
  split_ifs
  all_goals rw [← BitVec.getLsbD_eq_getElem]; congr 1; omega

/-- A command's bytes read back as the command. -/
theorem commandOfBytes_toBytes (c : Command) : commandOfBytes c.toBytes = some c :=
  congrArg (fun h => some (Command.mk h c.payload)) (headerOf_extract_bytes c.header)

/-- The bytes of a command decode to an instruction just where the command does. -/
theorem decode_toBytes_eq_ok_iff (c : Command) (i : Instr) : decode c.toBytes = .ok i ↔ decodeCommand c = some i := by
  unfold decode
  rw [commandOfBytes_toBytes]
  cases h : decodeCommand c <;> simp [h]

/-- Settles O6: the step decodes the command itself, and its bytes decode alike. -/
theorem stepRunsDecodedCommand : Obligations.StepRunsDecodedCommand := by
  unfold Obligations.StepRunsDecodedCommand
  refine ⟨fun s c rest i hin hdec => ?_, fun s => step_idle⟩
  exact step_run hin ((decode_toBytes_eq_ok_iff c i).1 hdec)

end Sys2Proof.Machine
end

section
/-! The parts of an accepted command's completion: each check passes where the operands, flags and data are as R305's
stages want them, and each output is as long as R96 says. -/

namespace Sys2Proof.Machine

/-! Each check of the commands, passed. -/

section Checks

variable {c : Fields} {s : State}

theorem argNotZero_eq_false (h : c.arg.toNat = 0) : argNotZero c = false := by
  simp [argNotZero, h]

theorem argAbove_eq_false {n : Nat} (h : c.arg.toNat ≤ n) : argAbove n c = false := by
  simp [argAbove, h]

theorem badDigestLength_eq_false {n : Nat} (h : 20 ≤ n ∧ n ≤ 64) : badDigestLength n = false := by
  simp [badDigestLength, h]

theorem rsaTooLong_eq_false (h : Config.rsaFits c.len.toNat = true) : rsaTooLong c = false := by
  simp [rsaTooLong, h]

/-- The framing check is the negation of `framed`, whatever the format. -/
theorem badFrame_eq_false {i : Instr} (h : i.framed = true) : badFrame i.format i.fields = false := by
  unfold Instr.framed at h
  cases hf : i.format <;> simp_all [badFrame]

theorem absorbing_eq_false (h : s.shPhase = .idle) : s.absorbing = false := by
  simp [State.absorbing, h]

theorem absorbing_eq_true (h : s.shPhase = .absorb) : s.absorbing = true := by
  simp [State.absorbing, h]

/-- A position inside the block raises no fault (R159). -/
theorem withSession_of_lt {f : State → Result} (h : s.shPos.toNat < s.shVar.rateBytes) : withSession s f = f s := by
  simp [withSession, h]

theorem badDigestRequest_eq_false {v : Variant} {n : Nat} (h : v.digestBytes = none ∨ v.digestBytes = some n) :
    badDigestRequest v n = false := by
  rcases h with h | h <;> simp [badDigestRequest, h]

theorem Csr.exists_ofNumber {n : Nat} (h : n ≤ 4) : ∃ r, Csr.ofNumber n = some r := by
  interval_cases n <;> exact ⟨_, rfl⟩

theorem Variant.exists_ofCode {n : Nat} (h : n ≤ 5) : ∃ v, Variant.ofCode n = some v := by
  interval_cases n <;> exact ⟨_, rfl⟩

theorem RsaReg.exists_ofNumber {n : Nat} (h : n ≤ 3) : ∃ r, RsaReg.ofNumber n = some r := by
  interval_cases n <;> exact ⟨_, rfl⟩

theorem KeySize.exists_ofBytes {n : Nat} (h : n = 16 ∨ n = 24 ∨ n = 32) : ∃ k, KeySize.ofBytes n = some k := by
  rcases h with rfl | rfl | rfl <;> exact ⟨_, rfl⟩

/-- R342's flags for `RSA.MODEXP` are those of the slot that `ARG` names. -/
theorem flagsReady_rsaModexp : flagsReady s (.rsaModexp c) = s.slotReady (slotOf c) := by
  by_cases h : c.arg[1] = true <;> simp [flagsReady, slotOf, h, State.slotReady]

theorem dataReady_rsaModexp : dataReady s (.rsaModexp c) = decide (s.modulus (slotOf c) ≠ 0) := by
  by_cases h : c.arg[1] = true <;> simp [dataReady, slotOf, h, State.modulus]

theorem slotReady_pub (h : s.pubNV = true ∧ s.pubEV = true) : s.slotReady .pub = true := by
  simp [State.slotReady, h]

theorem slotReady_prv (h : s.prvNV = true ∧ s.prvDV = true) : s.slotReady .prv = true := by
  simp [State.slotReady, h]

end Checks

/-! The lengths of the outputs (R96). -/

/-- The 25 lanes are 200 bytes (R132). -/
theorem length_flatMap_le64inv (A : Lanes) : (A.toList.flatMap le64inv).length = 200 := by
  simp [List.length_flatMap]

/-- `SH.FINAL` answers as many bytes as it is asked for (R155). -/
theorem length_finish (v : Variant) (n : Nat) (t : Sponge) : (finish v n t).1.length = n := by
  have hrate := rateBytes_bounds v
  rw [finish, squeeze_eq _ (by omega)]
  simp

/-- The power modulo `m` is below `m` (R181). -/
theorem modexp_lt (b e : Nat) {m : Nat} (hm : 1 ≤ m) : modexp b e m < m := by
  rw [modexp_eq _ _ _ hm]
  split
  · omega
  · exact Nat.mod_lt _ hm

/-- The output of an RSA command is 1 to RSA_MAXBYTES bytes long, since its modulus fits a register (R27, R183). -/
theorem length_rsaOut_modexp (b e : Nat) (pad : Bool) {m : Nat} (hm : 1 ≤ m) (hfits : m < 256 ^ Config.rsaMaxBytes) :
    1 ≤ (rsaOut (modexp b e m) pad m).length ∧ (rsaOut (modexp b e m) pad m).length ≤ Config.rsaMaxBytes := by
  have hcap : 1 ≤ Config.rsaMaxBytes := le_trans (by decide) Config.rsaMaxBytes_ge
  have hlt : modexp b e m < 256 ^ Config.rsaMaxBytes := (modexp_lt b e hm).trans hfits
  rw [length_rsaOut]
  cases pad with
  | true => exact ⟨bytelen_pos _, (bytelen_le_iff hcap).2 hfits⟩
  | false => exact ⟨bytelen_pos _, (bytelen_le_iff hcap).2 hlt⟩

/-- The moduli of both slots fit a register (R27). -/
theorem RsaInv.modulus_lt {s : State} (h : RsaInv s) (slot : Slot) : s.modulus slot < 256 ^ Config.rsaMaxBytes := by
  obtain ⟨hpubN, -, hprvN, -⟩ := h
  cases slot with
  | pub => exact hpubN
  | prv => exact hprvN

/-- `CHECKED` on a loaded slot and an input below the modulus answers 1 to RSA_MAXBYTES bytes (R186). -/
theorem checked_accepted {s : State} {slot : Slot} {p : Bytes} (pad : Bool) (hinv : RsaInv s)
    (hready : s.slotReady slot = true) (hdata : os2ip p < s.modulus slot) :
    ∃ q, checked slot p pad s = .ok q ∧ 1 ≤ q.length ∧ q.length ≤ Config.rsaMaxBytes := by
  rcases checked_cases slot p pad s with ⟨hno, -⟩ | ⟨-, hlarge, -⟩ | ⟨-, -, hok⟩
  · simp [hready] at hno
  · omega
  · exact ⟨_, hok, length_rsaOut_modexp _ _ _ (by omega) (hinv.modulus_lt slot)⟩

@[simp] theorem length_verdict (digest recovered : Bytes) : (verdict digest recovered).length = 1 := by
  unfold verdict; split <;> rfl

/-- ECB keeps the number of whole blocks (R239). -/
theorem length_ecb (f : Block → Block) (p : Bytes) : (ecb f p).length = p.length / 16 * 16 := by
  simp [ecb_eq, List.length_flatMap]

theorem length_pkcs7Pad (m : Bytes) : (pkcs7Pad m).length = 16 * (m.length / 16 + 1) := by
  rw [pkcs7Pad, List.length_append, List.length_replicate]
  omega

/-- Unpadding takes 1 to 16 bytes off (R238). -/
theorem length_pkcs7Unpad {x q : Bytes} (h : pkcs7Unpad x = some q) :
    x.length - 16 ≤ q.length ∧ q.length ≤ x.length - 1 := by
  simp only [pkcs7Unpad] at h
  split at h
  · cases h
  next hpad =>
    cases h
    rw [List.length_take]
    omega

theorem length_streamBytes (n : Nat) (t : Rc4Stream) : (streamBytes n t).length = n := by
  simp [streamBytes]

theorem length_keyStream (n : Nat) (t : Rc4Stream) : (keyStream n t).2.length = n := by
  rw [keyStream_eq, length_streamBytes]

theorem length_xorStream (p : Bytes) (t : Rc4Stream) : (xorStream p t).2.length = p.length := by
  rw [xorStream_eq, List.length_zipWith, length_streamBytes, Nat.min_self]

end Sys2Proof.Machine
end

section
/-! Every command that passes its checks completes (30_encoding.md R96, 60_exceptions.md R305): one lemma a command. -/

namespace Sys2Proof.Machine

-- Side by side these proofs take more threads than the memory limit allows, as the tests do.
set_option Elab.async false

/-- A command that passes every stage of R305, in a state that meets the session and the RSA invariant. -/
structure Accepted (i : Instr) (s : State) : Prop where
  session : SessionInv s
  rsa : RsaInv s
  arg : i.argLegal = true
  frame : i.framed = true
  len : i.lenLegal = true
  flags : flagsReady s i = true
  data : dataReady s i = true

/-- The command goes on, with one `OK` response as long as R96 allows, and leaves `LASTERR`, `SYS.RESET` 0. -/
def Completes (i : Instr) (s : State) : Prop :=
  ∃ (t : State) (q : Bytes), exec i s = .next t ∧
    t.outbox = s.outbox ++ [⟨i.op ++ 0x00#8 ++ BitVec.ofNat 16 q.length, q⟩] ∧
    q.length ≤ 65535 ∧ outputLegal q.length i ∧
    t.lastErr = (if i.op = 0x01 then 0 else s.lastErr)

/-- Every output length of R96 fits `OLEN`. -/
theorem outputLegal_le {n : Nat} {i : Instr} (hlen : i.lenLegal = true) (h : outputLegal n i) : n ≤ 65535 := by
  have hcap := Config.rsaMaxBytes_le
  have hfield := i.fields.len.isLt
  cases i with
  | aesEncrypt c =>
    have hmax : c.len.toNat ≤ 65519 := of_decide_eq_true hlen
    simp only [outputLegal] at h
    omega
  | _ => simp only [outputLegal, Instr.fields] at h hfield; omega

namespace Accepted

variable {c : Fields} {s t : State} {i : Instr} {q : Bytes}

/-- A command completes where its meaning is a response of a legal length on a state `t` with the old responses. -/
theorem completes_of_lastErr (h : Accepted i s) (hexec : exec i s = .next (respond i.op q t))
    (hq : outputLegal q.length i) (hout : t.outbox = s.outbox)
    (herr : t.lastErr = (if i.op = 0x01 then 0 else s.lastErr)) : Completes i s :=
  ⟨respond i.op q t, q, hexec, congrArg (· ++ _) hout, outputLegal_le h.len hq, hq, herr⟩

/-- The commands but `SYS.RESET` leave `LASTERR` as it was (R43). -/
theorem completes (h : Accepted i s) (hexec : exec i s = .next (respond i.op q t)) (hq : outputLegal q.length i)
    (hop : (i.op == 0x01) = false := by rfl) (hout : t.outbox = s.outbox := by simp)
    (herr : t.lastErr = s.lastErr := by simp) : Completes i s :=
  h.completes_of_lastErr hexec hq hout (by rw [herr, if_neg (ne_of_beq_false hop)])

/-- The framing check passes (R93). -/
theorem badFrame_false (h : Accepted i s) : badFrame i.format i.fields = false := badFrame_eq_false h.frame

/-- In format `P` the payload has `LEN` bytes (R93). -/
theorem payload_length (h : Accepted i s) (hf : i.format = .payload) : i.fields.payload.length = i.fields.len.toNat := by
  have hframe := h.frame
  simpa [Instr.framed, hf] using hframe

/-! SYS. -/

theorem completes_sysNop (h : Accepted (.sysNop c) s) : Completes (.sysNop c) s := by
  have harg := argNotZero_eq_false (of_decide_eq_true h.arg)
  have hframe : badFrame .noPayload c = false := h.badFrame_false
  have hexec : exec (.sysNop c) s = .next (respond Opcode.sysNop [] s) := by
    simp [exec, execSysNop, attempt_cons, attempt_nil, harg, hframe]
  exact h.completes hexec rfl

theorem completes_sysReset (h : Accepted (.sysReset c) s) : Completes (.sysReset c) s := by
  have harg := argNotZero_eq_false (of_decide_eq_true h.arg)
  have hframe : badFrame .noPayload c = false := h.badFrame_false
  have hexec : exec (.sysReset c) s = .next (respond Opcode.sysReset [] s.resetCore) := by
    simp [exec, execSysReset, attempt_cons, attempt_nil, harg, hframe]
  exact h.completes_of_lastErr hexec rfl (State.resetCore_outbox s) (State.resetCore_lastErr s)

theorem completes_sysRdsr (h : Accepted (.sysRdsr c) s) : Completes (.sysRdsr c) s := by
  obtain ⟨r, hr⟩ := Csr.exists_ofNumber (of_decide_eq_true h.arg)
  have hframe : badFrame .noPayload c = false := h.badFrame_false
  have hexec : exec (.sysRdsr c) s = .next (respond Opcode.sysRdsr (wordBytes (s.csr r)) s) := by
    simp [exec, execSysRdsr, attempt_cons, attempt_nil, hr, hframe]
  exact h.completes hexec rfl

/-! KP. -/

theorem completes_kpLdst (h : Accepted (.kpLdst c) s) : Completes (.kpLdst c) s := by
  have harg := argNotZero_eq_false (of_decide_eq_true h.arg)
  have hframe : badFrame .payload c = false := h.badFrame_false
  have hlen : c.len.toNat = 200 := of_decide_eq_true h.len
  have hphase := absorbing_eq_false (of_decide_eq_true h.flags)
  have hexec : exec (.kpLdst c) s = .next (respond Opcode.kpLdst [] (s.loadLanes (lanesOfBytes c.payload))) := by
    simp [exec, execKpLdst, attempt_cons, attempt_nil, harg, hframe, hlen, hphase]
  exact h.completes hexec rfl

theorem completes_kpRdst (h : Accepted (.kpRdst c) s) : Completes (.kpRdst c) s := by
  have harg := argNotZero_eq_false (of_decide_eq_true h.arg)
  have hframe : badFrame .noPayload c = false := h.badFrame_false
  have hvalid : s.kValid = true := h.flags
  have hexec : exec (.kpRdst c) s = .next (respond Opcode.kpRdst (s.lanes.toList.flatMap le64inv) s) := by
    simp [exec, execKpRdst, attempt_cons, attempt_nil, harg, hframe, hvalid]
  exact h.completes hexec (length_flatMap_le64inv s.lanes)

theorem completes_kpPerm (h : Accepted (.kpPerm c) s) : Completes (.kpPerm c) s := by
  have harg := argNotZero_eq_false (of_decide_eq_true h.arg)
  have hframe : badFrame .noPayload c = false := h.badFrame_false
  obtain ⟨hidle, hvalid⟩ : s.shPhase = .idle ∧ s.kValid = true := of_decide_eq_true h.flags
  have hexec : exec (.kpPerm c) s = .next (respond Opcode.kpPerm [] (s.setLanes (keccakF s.lanes))) := by
    simp [exec, execKpPerm, attempt_cons, attempt_nil, harg, hframe, absorbing_eq_false hidle, hvalid]
  exact h.completes hexec rfl

theorem completes_kpRound (h : Accepted (.kpRound c) s) : Completes (.kpRound c) s := by
  have harg := argAbove_eq_false (of_decide_eq_true h.arg)
  have hframe : badFrame .noPayload c = false := h.badFrame_false
  obtain ⟨hidle, hvalid⟩ : s.shPhase = .idle ∧ s.kValid = true := of_decide_eq_true h.flags
  have hexec : exec (.kpRound c) s =
      .next (respond Opcode.kpRound [] (s.setLanes (keccakRound s.lanes c.arg.toNat))) := by
    simp [exec, execKpRound, attempt_cons, attempt_nil, harg, hframe, absorbing_eq_false hidle, hvalid]
  exact h.completes hexec rfl

/-! SH. The session invariant keeps `SH.ABSORB` and `SH.FINAL` from faulting (log 11). -/

theorem completes_shInit (h : Accepted (.shInit c) s) : Completes (.shInit c) s := by
  obtain ⟨v, hv⟩ := Variant.exists_ofCode (of_decide_eq_true h.arg)
  have hframe : badFrame .noPayload c = false := h.badFrame_false
  have hexec : exec (.shInit c) s = .next (respond Opcode.shInit [] (s.openSession v)) := by
    simp [exec, execShInit, attempt_cons, attempt_nil, hv, hframe]
  exact h.completes hexec rfl

theorem completes_shAbsorb (h : Accepted (.shAbsorb c) s) : Completes (.shAbsorb c) s := by
  have harg := argNotZero_eq_false (of_decide_eq_true h.arg)
  have hframe : badFrame .payload c = false := h.badFrame_false
  have hphase : s.shPhase = .absorb := of_decide_eq_true h.flags
  obtain ⟨-, hpos⟩ := h.session hphase
  have hexec : exec (.shAbsorb c) s =
      .next (respond Opcode.shAbsorb [] (s.setSponge (absorb s.shVar.rateBytes s.session c.payload).lanes
        (absorb s.shVar.rateBytes s.session c.payload).pos)) := by
    simp [exec, execShAbsorb, attempt_cons, attempt_nil, withSession_of_lt hpos, harg, hframe, absorbing_eq_true hphase]
  exact h.completes hexec rfl

theorem completes_shFinal (h : Accepted (.shFinal c) s) : Completes (.shFinal c) s := by
  have harg := argNotZero_eq_false (of_decide_eq_true h.arg)
  have hframe : badFrame .output c = false := h.badFrame_false
  have hphase : s.shPhase = .absorb := of_decide_eq_true h.flags
  have hdigest := badDigestRequest_eq_false (of_decide_eq_true h.data)
  obtain ⟨-, hpos⟩ := h.session hphase
  have hexec : exec (.shFinal c) s = .next (respond Opcode.shFinal (finish s.shVar c.len.toNat s.session).1
      (s.closeSession (finish s.shVar c.len.toNat s.session).2)) := by
    simp [exec, execShFinal, attempt_cons, attempt_nil, withSession_of_lt hpos, harg, hframe, absorbing_eq_true hphase,
      hdigest]
  exact h.completes hexec (length_finish _ _ _)

/-! RSA. -/

theorem completes_rsaLd (h : Accepted (.rsaLd c) s) : Completes (.rsaLd c) s := by
  obtain ⟨r, hr⟩ := RsaReg.exists_ofNumber (of_decide_eq_true h.arg)
  have hframe : badFrame .payload c = false := h.badFrame_false
  have hlen := rsaTooLong_eq_false h.len
  have hexec : exec (.rsaLd c) s = .next (respond Opcode.rsaLd [] (s.loadRsa r (os2ip c.payload))) := by
    simp [exec, execRsaLd, attempt_cons, attempt_nil, hr, hframe, hlen]
  exact h.completes hexec rfl

theorem completes_rsaModexp (h : Accepted (.rsaModexp c) s) : Completes (.rsaModexp c) s := by
  have harg := argAbove_eq_false (of_decide_eq_true h.arg)
  have hframe : badFrame .payload c = false := h.badFrame_false
  have hlen := rsaTooLong_eq_false h.len
  have hready : s.slotReady (slotOf c) = true := flagsReady_rsaModexp ▸ h.flags
  have hmod : s.modulus (slotOf c) ≠ 0 := of_decide_eq_true (dataReady_rsaModexp ▸ h.data)
  have hexec : exec (.rsaModexp c) s = .next (respond Opcode.rsaModexp
      (rsaOut (modexp (os2ip c.payload) (s.exponent (slotOf c)) (s.modulus (slotOf c))) (padBit c)
        (s.modulus (slotOf c))) s) := by
    simp [exec, execRsaModexp, attempt_cons, attempt_nil, harg, hframe, hlen, hready, hmod]
  exact h.completes hexec (length_rsaOut_modexp _ _ _ (Nat.pos_of_ne_zero hmod) (h.rsa.modulus_lt _))

/-- What `RSA.ENCRYPT`, `RSA.DECRYPT`, `RSA.SIGN` and `RSA.VERIFY` share (R187 to R190). -/
theorem rsaChecked_accepted (h : Accepted i s) (slot : Slot) (harg : i.fields.arg.toNat ≤ 1)
    (hformat : i.format = .payload) (hlen : Config.rsaFits i.fields.len.toNat = true)
    (hready : s.slotReady slot = true) (hdata : os2ip i.fields.payload < s.modulus slot) :
    ∃ q, rsaChecked i.op slot i.fields s = .next (respond i.op q s) ∧ 1 ≤ q.length ∧ q.length ≤ Config.rsaMaxBytes := by
  obtain ⟨q, hq, hbounds⟩ := checked_accepted (padBit i.fields) h.rsa hready hdata
  have hframe : badFrame .payload i.fields = false := hformat ▸ h.badFrame_false
  refine ⟨q, ?_, hbounds⟩
  simp [rsaChecked, attempt_cons, attempt_nil, argAbove_eq_false harg, hframe, rsaTooLong_eq_false hlen, hq, respond_eq]

theorem completes_rsaEncrypt (h : Accepted (.rsaEncrypt c) s) : Completes (.rsaEncrypt c) s := by
  obtain ⟨q, hexec, hq⟩ := h.rsaChecked_accepted .pub (of_decide_eq_true h.arg) rfl h.len
    (slotReady_pub (of_decide_eq_true h.flags)) (of_decide_eq_true h.data)
  exact h.completes hexec hq

theorem completes_rsaDecrypt (h : Accepted (.rsaDecrypt c) s) : Completes (.rsaDecrypt c) s := by
  obtain ⟨q, hexec, hq⟩ := h.rsaChecked_accepted .prv (of_decide_eq_true h.arg) rfl h.len
    (slotReady_prv (of_decide_eq_true h.flags)) (of_decide_eq_true h.data)
  exact h.completes hexec hq

theorem completes_rsaSign (h : Accepted (.rsaSign c) s) : Completes (.rsaSign c) s := by
  obtain ⟨q, hexec, hq⟩ := h.rsaChecked_accepted .prv (of_decide_eq_true h.arg) rfl h.len
    (slotReady_prv (of_decide_eq_true h.flags)) (of_decide_eq_true h.data)
  exact h.completes hexec hq

theorem completes_rsaVerify (h : Accepted (.rsaVerify c) s) : Completes (.rsaVerify c) s := by
  obtain ⟨q, hexec, hq⟩ := h.rsaChecked_accepted .pub (of_decide_eq_true h.arg) rfl h.len
    (slotReady_pub (of_decide_eq_true h.flags)) (of_decide_eq_true h.data)
  exact h.completes hexec hq

theorem completes_rsaSignhash (h : Accepted (.rsaSignhash c) s) : Completes (.rsaSignhash c) s := by
  have harg := argAbove_eq_false (of_decide_eq_true h.arg)
  have hframe : badFrame .payload c = false := h.badFrame_false
  have hlen := badDigestLength_eq_false (of_decide_eq_true h.len)
  have hready := slotReady_prv (of_decide_eq_true h.flags)
  obtain ⟨q, hq, hbounds⟩ := checked_accepted (padBit c) h.rsa hready (of_decide_eq_true h.data)
  have hexec : exec (.rsaSignhash c) s = .next (respond Opcode.rsaSignhash q s) := by
    simp [exec, execRsaSignhash, attempt_cons, attempt_nil, harg, hframe, hlen, hq, respond_eq]
  exact h.completes hexec hbounds

theorem completes_rsaVerifyhash (h : Accepted (.rsaVerifyhash c) s) : Completes (.rsaVerifyhash c) s := by
  have harg := badDigestLength_eq_false (of_decide_eq_true h.arg)
  have hframe : badFrame .payload c = false := h.badFrame_false
  obtain ⟨hlen, hfits⟩ : c.arg.toNat ≤ c.len.toNat ∧ Config.rsaFits (c.len.toNat - c.arg.toNat) = true := by
    simpa [Instr.lenLegal] using h.len
  have hready := slotReady_pub (of_decide_eq_true h.flags)
  obtain ⟨q, hq, -⟩ := checked_accepted false h.rsa hready (of_decide_eq_true h.data)
  have hexec : exec (.rsaVerifyhash c) s =
      .next (respond Opcode.rsaVerifyhash (verdict (c.payload.take c.arg.toNat) q) s) := by
    simp [exec, execRsaVerifyhash, attempt_cons, attempt_nil, harg, hframe, hlen, hfits, hq, Except.map, respond_eq]
  exact h.completes hexec (length_verdict _ _)

/-! AES. -/

theorem completes_aesSetkey (h : Accepted (.aesSetkey c) s) : Completes (.aesSetkey c) s := by
  have harg := argNotZero_eq_false (of_decide_eq_true h.arg)
  have hframe : badFrame .payload c = false := h.badFrame_false
  obtain ⟨k, hk⟩ := KeySize.exists_ofBytes (of_decide_eq_true h.len)
  have hexec : exec (.aesSetkey c) s =
      .next (respond Opcode.aesSetkey [] (s.loadAesKey k (expandKey k c.payload))) := by
    simp [exec, execAesSetkey, attempt_cons, attempt_nil, harg, hframe, hk]
  exact h.completes hexec rfl

theorem completes_aesEncblk (h : Accepted (.aesEncblk c) s) : Completes (.aesEncblk c) s := by
  have harg := argNotZero_eq_false (of_decide_eq_true h.arg)
  have hframe : badFrame .payload c = false := h.badFrame_false
  have hlen : c.len.toNat = 16 := of_decide_eq_true h.len
  have hkey : s.aesKV = true := h.flags
  have hexec : exec (.aesEncblk c) s =
      .next (respond Opcode.aesEncblk (s.encBlock (blockOfBytes c.payload)).toList s) := by
    simp [exec, execAesEncblk, attempt_cons, attempt_nil, harg, hframe, hlen, hkey]
  exact h.completes hexec Vector.length_toList

theorem completes_aesDecblk (h : Accepted (.aesDecblk c) s) : Completes (.aesDecblk c) s := by
  have harg := argNotZero_eq_false (of_decide_eq_true h.arg)
  have hframe : badFrame .payload c = false := h.badFrame_false
  have hlen : c.len.toNat = 16 := of_decide_eq_true h.len
  have hkey : s.aesKV = true := h.flags
  have hexec : exec (.aesDecblk c) s =
      .next (respond Opcode.aesDecblk (s.decBlock (blockOfBytes c.payload)).toList s) := by
    simp [exec, execAesDecblk, attempt_cons, attempt_nil, harg, hframe, hlen, hkey]
  exact h.completes hexec Vector.length_toList

theorem completes_aesEncrypt (h : Accepted (.aesEncrypt c) s) : Completes (.aesEncrypt c) s := by
  have harg := argNotZero_eq_false (of_decide_eq_true h.arg)
  have hframe : badFrame .payload c = false := h.badFrame_false
  have hlen : c.len.toNat ≤ 65519 := of_decide_eq_true h.len
  have hkey : s.aesKV = true := h.flags
  have hpayload : c.payload.length = c.len.toNat := h.payload_length rfl
  have hexec : exec (.aesEncrypt c) s =
      .next (respond Opcode.aesEncrypt (ecb s.encBlock (pkcs7Pad c.payload)) s) := by
    simp [exec, execAesEncrypt, attempt_cons, attempt_nil, harg, hframe, hlen, hkey]
  have hout : (ecb s.encBlock (pkcs7Pad c.payload)).length = 16 * (c.len.toNat / 16 + 1) := by
    rw [length_ecb, length_pkcs7Pad, hpayload]
    omega
  exact h.completes hexec hout

theorem completes_aesDecrypt (h : Accepted (.aesDecrypt c) s) : Completes (.aesDecrypt c) s := by
  have harg := argNotZero_eq_false (of_decide_eq_true h.arg)
  have hframe : badFrame .payload c = false := h.badFrame_false
  obtain ⟨hsome, hblocks⟩ : c.len.toNat ≠ 0 ∧ c.len.toNat % 16 = 0 := of_decide_eq_true h.len
  have hkey : s.aesKV = true := h.flags
  obtain ⟨q, hq⟩ := Option.isSome_iff_exists.1 h.data
  have hpayload : c.payload.length = c.len.toNat := h.payload_length rfl
  have hplain : (ecb s.decBlock c.payload).length = c.len.toNat := by
    rw [length_ecb, hpayload]
    omega
  have hexec : exec (.aesDecrypt c) s = .next (respond Opcode.aesDecrypt q s) := by
    simp [exec, execAesDecrypt, attempt_cons, attempt_nil, unpadOrError, harg, hframe, hsome, hblocks, hkey, hq,
      respond_eq]
  have hout := length_pkcs7Unpad hq
  rw [hplain] at hout
  exact h.completes hexec hout

/-! RC4. -/

theorem completes_rc4Setkey (h : Accepted (.rc4Setkey c) s) : Completes (.rc4Setkey c) s := by
  have harg := argNotZero_eq_false (of_decide_eq_true h.arg)
  have hframe : badFrame .payload c = false := h.badFrame_false
  obtain ⟨hmin, hmax⟩ : 1 ≤ c.len.toNat ∧ c.len.toNat ≤ 256 := of_decide_eq_true h.len
  have hexec : exec (.rc4Setkey c) s = .next (respond Opcode.rc4Setkey [] (s.loadRc4Key ⟨ksa c.payload, 0, 0⟩)) := by
    simp [exec, execRc4Setkey, attempt_cons, attempt_nil, harg, hframe, Nat.not_lt.2 hmin, Nat.not_lt.2 hmax]
  exact h.completes hexec rfl

theorem completes_rc4Ks (h : Accepted (.rc4Ks c) s) : Completes (.rc4Ks c) s := by
  have harg := argNotZero_eq_false (of_decide_eq_true h.arg)
  have hframe : badFrame .output c = false := h.badFrame_false
  have hkey : s.rc4Keyed = true := h.flags
  have hexec : exec (.rc4Ks c) s = .next (respond Opcode.rc4Ks (keyStream c.len.toNat s.stream).2
      (s.setStream (keyStream c.len.toNat s.stream).1)) := by
    simp [exec, execRc4Ks, attempt_cons, attempt_nil, harg, hframe, hkey]
  exact h.completes hexec (length_keyStream _ _)

theorem completes_rc4Xor (h : Accepted (.rc4Xor c) s) : Completes (.rc4Xor c) s := by
  have harg := argNotZero_eq_false (of_decide_eq_true h.arg)
  have hframe : badFrame .payload c = false := h.badFrame_false
  have hkey : s.rc4Keyed = true := h.flags
  have hpayload : c.payload.length = c.len.toNat := h.payload_length rfl
  have hexec : exec (.rc4Xor c) s = .next (respond Opcode.rc4Xor (xorStream c.payload s.stream).2
      (s.setStream (xorStream c.payload s.stream).1)) := by
    simp [exec, execRc4Xor, attempt_cons, attempt_nil, harg, hframe, hkey]
  exact h.completes hexec ((length_xorStream _ _).trans hpayload)

end Accepted

/-- Settles O11, command by command. -/
theorem acceptedCommandsComplete : Obligations.AcceptedCommandsComplete := by
  unfold Obligations.AcceptedCommandsComplete
  intro i s hsession hrsa harg hframe hlen hflags hdata
  have h : Accepted i s := ⟨hsession, hrsa, harg, hframe, hlen, hflags, hdata⟩
  show Completes i s
  cases i with
  | sysNop c => exact h.completes_sysNop
  | sysReset c => exact h.completes_sysReset
  | sysRdsr c => exact h.completes_sysRdsr
  | kpLdst c => exact h.completes_kpLdst
  | kpRdst c => exact h.completes_kpRdst
  | kpPerm c => exact h.completes_kpPerm
  | kpRound c => exact h.completes_kpRound
  | shInit c => exact h.completes_shInit
  | shAbsorb c => exact h.completes_shAbsorb
  | shFinal c => exact h.completes_shFinal
  | rsaLd c => exact h.completes_rsaLd
  | rsaModexp c => exact h.completes_rsaModexp
  | rsaEncrypt c => exact h.completes_rsaEncrypt
  | rsaDecrypt c => exact h.completes_rsaDecrypt
  | rsaSign c => exact h.completes_rsaSign
  | rsaVerify c => exact h.completes_rsaVerify
  | rsaSignhash c => exact h.completes_rsaSignhash
  | rsaVerifyhash c => exact h.completes_rsaVerifyhash
  | aesSetkey c => exact h.completes_aesSetkey
  | aesEncblk c => exact h.completes_aesEncblk
  | aesDecblk c => exact h.completes_aesDecblk
  | aesEncrypt c => exact h.completes_aesEncrypt
  | aesDecrypt c => exact h.completes_aesDecrypt
  | rc4Setkey c => exact h.completes_rc4Setkey
  | rc4Ks c => exact h.completes_rc4Ks
  | rc4Xor c => exact h.completes_rc4Xor

end Sys2Proof.Machine
end

section
/-! The status registers field by field (10_state.md R42, R45, R46), and the state after reset (R47). -/

namespace Sys2Proof.Machine

open BitVec (extractLsb'_append_eq_of_le extractLsb'_append_eq_right)

theorem absorbing_iff {s : State} : s.absorbing = true ↔ s.shPhase = .absorb := decide_eq_true_iff

theorem ofBool_absorbing (s : State) : BitVec.ofBool s.absorbing = if s.shPhase = .absorb then 1 else 0 := by
  by_cases h : s.shPhase = .absorb <;> simp [State.absorbing, h]

theorem varField_eq (s : State) :
    s.varField = if s.shPhase = .absorb then BitVec.ofNat 3 s.shVar.code else 0 := by
  simp only [State.varField, absorbing_iff]

theorem kszField_eq (s : State) :
    s.kszField = if s.aesKV = false then 0 else if s.aesNK = .nk4 then 1 else if s.aesNK = .nk6 then 2 else 3 := by
  unfold State.kszField
  cases s.aesKV with
  | false => rfl
  | true => cases s.aesNK <;> rfl

/-- Settles O14: each field is read by dropping the fields below it. -/
theorem statusFields : Obligations.StatusFields := by
  unfold Obligations.StatusFields
  intro s
  rw [← ofBool_absorbing, ← varField_eq, ← kszField_eq]
  refine ⟨?kValid, ?phase, ?variant, ?bits7to5, ?pubNV, ?pubEV, ?prvNV, ?prvDV, ?aesKV, ?keySize, ?bit15, ?rc4Keyed,
    ?bits31to17⟩
  all_goals
    unfold State.status
    repeat rw [extractLsb'_append_eq_of_le (by decide)]
  case bits31to17 => rfl
  all_goals exact extractLsb'_append_eq_right

/-- The four fields of `SH_CFG` while a session is open (R45). -/
theorem shCfg_of_absorb {s : State} (h : s.shPhase = .absorb) :
    s.shCfg = s.shVar.suffix ++ s.shVar.dlenField ++ BitVec.ofNat 8 s.shVar.rateBytes ++ s.shPos :=
  if_pos (absorbing_iff.2 h)

/-- The two fields of `RC4_IJ` while a key is loaded (R46). -/
theorem rc4Ij_of_keyed {s : State} (h : s.rc4Keyed = true) : s.rc4Ij = 0#16 ++ s.rc4J ++ s.rc4I := if_pos h

/-- Settles O15: each register is 0 without its flag, and else its fields are read by dropping those below. -/
theorem spongeAndStreamRegisters : Obligations.SpongeAndStreamRegisters := by
  unfold Obligations.SpongeAndStreamRegisters
  refine fun s => ⟨fun hidle => ?idle, fun habsorb => ?absorb, fun hkey => ?noKey, fun hkey => ?keyed⟩
  case idle => simp [State.shCfg, State.absorbing, hidle]
  case noKey => simp [State.rc4Ij, hkey]
  case absorb =>
    rw [shCfg_of_absorb habsorb]
    refine ⟨?position, ?rate, ?digestLength, ?suffix⟩
    all_goals
      repeat rw [extractLsb'_append_eq_of_le (by decide)]
    case position => exact extractLsb'_append_eq_right
    case rate => exact extractLsb'_append_eq_right
    case digestLength =>
      refine extractLsb'_append_eq_right.trans ?_
      cases s.shVar <;> rfl
    case suffix => cases s.shVar <;> rfl
  case keyed =>
    rw [rc4Ij_of_keyed hkey]
    refine ⟨?i, ?j, ?high⟩
    all_goals
      repeat rw [extractLsb'_append_eq_of_le (by decide)]
    case high => rfl
    all_goals exact extractLsb'_append_eq_right

/-- Settles O51: no session and no key are there, 0 fits every RSA register, and nothing is answered. -/
theorem resetSatisfiesInvariant : Obligations.ResetSatisfiesInvariant := by
  unfold Obligations.ResetSatisfiesInvariant
  have hzero : 0 < 256 ^ Config.rsaMaxBytes := Nat.pow_pos (by decide)
  exact {
    session := nofun
    rsa := ⟨hzero, hzero, hzero, hzero⟩
    aes := nofun
    rc4 := nofun
    lastErr := .inl rfl
    outbox := nofun }

end Sys2Proof.Machine
end

section
/-! What each command can leave, said once (10_state.md R20, 60_exceptions.md R303): the error state, or its effect and
one response. From it, the "Written by" column of R20. -/

namespace Sys2Proof.Machine

/-- What a command does to the registers where it succeeds: a constructor for each command that writes one, and
`reads` for the commands that only read. -/
inductive Effect : Instr → State → State → Prop where
  | reads {i : Instr} {s : State} : Effect i s s
  | sysReset {c : Fields} {s : State} : Effect (.sysReset c) s s.resetCore
  | kpLdst {c : Fields} {s : State} : Effect (.kpLdst c) s (s.loadLanes (lanesOfBytes c.payload))
  | kpPerm {c : Fields} {s : State} : Effect (.kpPerm c) s (s.setLanes (keccakF s.lanes))
  | kpRound {c : Fields} {s : State} : Effect (.kpRound c) s (s.setLanes (keccakRound s.lanes c.arg.toNat))
  | shInit {c : Fields} {s : State} {v : Variant} (hv : Variant.ofCode c.arg.toNat = some v) :
      Effect (.shInit c) s (s.openSession v)
  | shAbsorb {c : Fields} {s : State} (hpos : s.shPos.toNat < s.shVar.rateBytes) :
      Effect (.shAbsorb c) s (s.setSponge (absorb s.shVar.rateBytes s.session c.payload).lanes
        (absorb s.shVar.rateBytes s.session c.payload).pos)
  | shFinal {c : Fields} {s : State} (hpos : s.shPos.toNat < s.shVar.rateBytes) :
      Effect (.shFinal c) s (s.closeSession (finish s.shVar c.len.toNat s.session).2)
  | rsaLd {c : Fields} {s : State} {r : RsaReg} (hr : RsaReg.ofNumber c.arg.toNat = some r) :
      Effect (.rsaLd c) s (s.loadRsa r (os2ip c.payload))
  | aesSetkey {c : Fields} {s : State} {k : KeySize} (hk : KeySize.ofBytes c.len.toNat = some k) :
      Effect (.aesSetkey c) s (s.loadAesKey k (expandKey k c.payload))
  | rc4Setkey {c : Fields} {s : State} : Effect (.rc4Setkey c) s (s.loadRc4Key ⟨ksa c.payload, 0, 0⟩)
  | rc4Ks {c : Fields} {s : State} : Effect (.rc4Ks c) s (s.setStream (keyStream c.len.toNat s.stream).1)
  | rc4Xor {c : Fields} {s : State} : Effect (.rc4Xor c) s (s.setStream (xorStream c.payload s.stream).1)

/-- Where the outcome `r` of command `i` on `s` goes on, the command took an error, or had its effect and responded. -/
def Ends (i : Instr) (s : State) (r : Result) : Prop :=
  ∀ t, r = .next t →
    (∃ e : ErrorCode, t = afterError i.op e.code s) ∨ ∃ q u, Effect i s u ∧ t = afterOk i.op q u

namespace Ends

variable {i : Instr} {s : State}

theorem takeError (e : ErrorCode) : Ends i s (.next (takeError i.op e s)) := by
  rintro t ⟨⟩
  exact .inl ⟨e, rfl⟩

theorem respond {u : State} (q : Bytes) (h : Effect i s u) : Ends i s (.next (respond i.op q u)) := by
  rintro t ⟨⟩
  exact .inr ⟨q, u, h, rfl⟩

theorem attempt {cs : List Check} {f : State → Result} (h : Ends i s (f s)) : Ends i s (attempt i.op cs s f) := by
  rcases attempt_cases i.op cs s f with ⟨e, -, hfail⟩ | ⟨-, hpass⟩
  · exact hfail ▸ takeError e
  · exact hpass ▸ h

theorem answer (r : Except ErrorCode Bytes) : Ends i s (answer i.op r s) := by
  rcases answer_cases i.op r s with ⟨e, -, herr⟩ | ⟨q, -, hok⟩
  · exact herr ▸ takeError e
  · exact hok ▸ respond q .reads

theorem withSession {f : State → Result} (h : s.shPos.toNat < s.shVar.rateBytes → Ends i s (f s)) :
    Ends i s (withSession s f) := by
  rcases withSession_cases s f with ⟨hpos, hrun⟩ | ⟨-, hfault⟩
  · exact hrun ▸ h hpos
  · rw [hfault]
    rintro t ⟨⟩

theorem execSysRdsr (c : Fields) : Ends (.sysRdsr c) s (execSysRdsr c s) := by
  unfold Machine.execSysRdsr
  split
  · exact takeError _
  · exact .attempt (respond _ .reads)

theorem execShInit (c : Fields) : Ends (.shInit c) s (execShInit c s) := by
  unfold Machine.execShInit
  split
  · exact takeError _
  next v hv => exact .attempt (respond _ (.shInit hv))

theorem execRsaLd (c : Fields) : Ends (.rsaLd c) s (execRsaLd c s) := by
  unfold Machine.execRsaLd
  split
  · exact takeError _
  next r hr => exact .attempt (respond _ (.rsaLd hr))

theorem execAesSetkey (c : Fields) : Ends (.aesSetkey c) s (execAesSetkey c s) := by
  refine .attempt ?_
  split
  · exact takeError _
  next k hk => exact respond _ (.aesSetkey hk)

end Ends

/-- Every command ends with an error, or with its effect and a response. -/
theorem ends_exec (i : Instr) (s : State) : Ends i s (exec i s) := by
  unfold exec
  cases i with
  | sysNop c => exact .attempt (.respond _ .reads)
  | sysReset c => exact .attempt (.respond _ .sysReset)
  | sysRdsr c => exact .execSysRdsr c
  | kpLdst c => exact .attempt (.respond _ .kpLdst)
  | kpRdst c => exact .attempt (.respond _ .reads)
  | kpPerm c => exact .attempt (.respond _ .kpPerm)
  | kpRound c => exact .attempt (.respond _ .kpRound)
  | shInit c => exact .execShInit c
  | shAbsorb c => exact .attempt (.withSession fun hpos => .respond _ (.shAbsorb hpos))
  | shFinal c => exact .attempt (.withSession fun hpos => .respond _ (.shFinal hpos))
  | rsaLd c => exact .execRsaLd c
  | rsaModexp c => exact .attempt (.respond _ .reads)
  | rsaEncrypt c => exact .attempt (.answer _)
  | rsaDecrypt c => exact .attempt (.answer _)
  | rsaSign c => exact .attempt (.answer _)
  | rsaVerify c => exact .attempt (.answer _)
  | rsaSignhash c => exact .attempt (.answer _)
  | rsaVerifyhash c => exact .attempt (.answer _)
  | aesSetkey c => exact .execAesSetkey c
  | aesEncblk c => exact .attempt (.respond _ .reads)
  | aesDecblk c => exact .attempt (.respond _ .reads)
  | aesEncrypt c => exact .attempt (.respond _ .reads)
  | aesDecrypt c => exact .attempt (.answer _)
  | rc4Setkey c => exact .attempt (.respond _ .rc4Setkey)
  | rc4Ks c => exact .attempt (.respond _ .rc4Ks)
  | rc4Xor c => exact .attempt (.respond _ .rc4Xor)

/-- The "Written by" column of R20 for opcode `op` between `s` and `t`, one field a row: the command is listed, or the
register's group holds no value in `t`, or the register is as it was. -/
structure WritesAsListed (op : Byte) (s t : State) : Prop where
  lanes : op ∈ [0x10, 0x12, 0x13, 0x20, 0x21, 0x22] ∨ t.kValid = false ∨ t.lanes = s.lanes
  kValid : op ∈ [0x10, 0x20, 0x01] ∨ t.kValid = s.kValid
  shPhase : op ∈ [0x20, 0x22, 0x01] ∨ t.shPhase = s.shPhase
  shVar : op = 0x20 ∨ t.shPhase = .idle ∨ t.shVar = s.shVar
  shPos : op ∈ [0x20, 0x21, 0x22] ∨ t.shPhase = .idle ∨ t.shPos = s.shPos
  pubN : op = 0x30 ∨ t.pubNV = false ∨ t.pubN = s.pubN
  pubE : op = 0x30 ∨ t.pubEV = false ∨ t.pubE = s.pubE
  prvN : op = 0x30 ∨ t.prvNV = false ∨ t.prvN = s.prvN
  prvD : op = 0x30 ∨ t.prvDV = false ∨ t.prvD = s.prvD
  rsaValid : op ∈ [0x30, 0x01] ∨
    (t.pubNV = s.pubNV ∧ t.pubEV = s.pubEV ∧ t.prvNV = s.prvNV ∧ t.prvDV = s.prvDV)
  aesKV : op ∈ [0x40, 0x01] ∨ t.aesKV = s.aesKV
  aesKey : op = 0x40 ∨ t.aesKV = false ∨ (t.aesNK = s.aesNK ∧ t.aesW = s.aesW)
  rc4Keyed : op ∈ [0x50, 0x01] ∨ t.rc4Keyed = s.rc4Keyed
  stream : op ∈ [0x50, 0x51, 0x52] ∨ t.rc4Keyed = false ∨ (t.rc4S = s.rc4S ∧ t.rc4I = s.rc4I ∧ t.rc4J = s.rc4J)

namespace WritesAsListed

/-- A command that writes nothing keeps every row. -/
theorem refl (op : Byte) (s : State) : WritesAsListed op s s where
  lanes := .inr (.inr rfl)
  kValid := .inr rfl
  shPhase := .inr rfl
  shVar := .inr (.inr rfl)
  shPos := .inr (.inr rfl)
  pubN := .inr (.inr rfl)
  pubE := .inr (.inr rfl)
  prvN := .inr (.inr rfl)
  prvD := .inr (.inr rfl)
  rsaValid := .inr ⟨rfl, rfl, rfl, rfl⟩
  aesKV := .inr rfl
  aesKey := .inr (.inr ⟨rfl, rfl⟩)
  rc4Keyed := .inr rfl
  stream := .inr (.inr ⟨rfl, rfl, rfl⟩)

/-- No row speaks of `LASTERR` or of the responses. -/
theorem afterError {op : Byte} (code : Byte) (s : State) : WritesAsListed op s (afterError op code s) :=
  { refl op s with }

theorem afterOk {op : Byte} {s t : State} (h : WritesAsListed op s t) (q : Bytes) :
    WritesAsListed op s (afterOk op q t) :=
  { h with }

/-- The reset is listed for the flags, and leaves no group with a value. -/
theorem resetCore (s : State) : WritesAsListed Opcode.sysReset s s.resetCore where
  lanes := .inr (.inl rfl)
  kValid := .inl (by decide)
  shPhase := .inl (by decide)
  shVar := .inr (.inl rfl)
  shPos := .inr (.inl rfl)
  pubN := .inr (.inl rfl)
  pubE := .inr (.inl rfl)
  prvN := .inr (.inl rfl)
  prvD := .inr (.inl rfl)
  rsaValid := .inl (by decide)
  aesKV := .inl (by decide)
  aesKey := .inr (.inl rfl)
  rc4Keyed := .inl (by decide)
  stream := .inr (.inl rfl)

theorem loadRsa (r : RsaReg) (v : Nat) (s : State) : WritesAsListed Opcode.rsaLd s (s.loadRsa r v) where
  lanes := .inr (.inr (s.loadRsa_lanes r v))
  kValid := .inr (s.loadRsa_kValid r v)
  shPhase := .inr (s.loadRsa_shPhase r v)
  shVar := .inr (.inr (s.loadRsa_shVar r v))
  shPos := .inr (.inr (s.loadRsa_shPos r v))
  pubN := .inl rfl
  pubE := .inl rfl
  prvN := .inl rfl
  prvD := .inl rfl
  rsaValid := .inl (by decide)
  aesKV := .inr (s.loadRsa_aesKV r v)
  aesKey := .inr (.inr ⟨s.loadRsa_aesNK r v, s.loadRsa_aesW r v⟩)
  rc4Keyed := .inr (s.loadRsa_rc4Keyed r v)
  stream := .inr (.inr ⟨s.loadRsa_rc4S r v, s.loadRsa_rc4I r v, s.loadRsa_rc4J r v⟩)

/-! The other updates: named are the rows the command is listed in. -/

theorem loadLanes (A : Lanes) (s : State) : WritesAsListed Opcode.kpLdst s (s.loadLanes A) :=
  { refl _ s with lanes := .inl (by decide), kValid := .inl (by decide) }

theorem setLanes {op : Byte} (hop : op = Opcode.kpPerm ∨ op = Opcode.kpRound) (A : Lanes) (s : State) :
    WritesAsListed op s (s.setLanes A) := by
  rcases hop with rfl | rfl
  all_goals exact { refl _ s with lanes := .inl (by decide) }

theorem openSession (v : Variant) (s : State) : WritesAsListed Opcode.shInit s (s.openSession v) :=
  { refl _ s with
    lanes := .inl (by decide), kValid := .inl (by decide), shPhase := .inl (by decide), shVar := .inl rfl,
    shPos := .inl (by decide) }

theorem setSponge (A : Lanes) (pos : Nat) (s : State) : WritesAsListed Opcode.shAbsorb s (s.setSponge A pos) :=
  { refl _ s with lanes := .inl (by decide), shPos := .inl (by decide) }

theorem closeSession (A : Lanes) (s : State) : WritesAsListed Opcode.shFinal s (s.closeSession A) :=
  { refl _ s with
    lanes := .inl (by decide), shPhase := .inl (by decide), shVar := .inr (.inl rfl), shPos := .inl (by decide) }

theorem loadAesKey (k : KeySize) (ws : List KeyWord) (s : State) :
    WritesAsListed Opcode.aesSetkey s (s.loadAesKey k ws) :=
  { refl _ s with aesKV := .inl (by decide), aesKey := .inl rfl }

theorem loadRc4Key (z : Rc4Stream) (s : State) : WritesAsListed Opcode.rc4Setkey s (s.loadRc4Key z) :=
  { refl _ s with rc4Keyed := .inl (by decide), stream := .inl (by decide) }

theorem setStream {op : Byte} (hop : op = Opcode.rc4Ks ∨ op = Opcode.rc4Xor) (z : Rc4Stream) (s : State) :
    WritesAsListed op s (s.setStream z) := by
  rcases hop with rfl | rfl
  all_goals exact { refl _ s with stream := .inl (by decide) }

end WritesAsListed

/-- The effect of each command writes only registers that list it. -/
theorem Effect.writesAsListed {i : Instr} {s u : State} (h : Effect i s u) : WritesAsListed i.op s u := by
  cases h with
  | reads => exact .refl _ s
  | sysReset => exact .resetCore s
  | kpLdst => exact .loadLanes _ s
  | kpPerm => exact .setLanes (.inl rfl) _ s
  | kpRound => exact .setLanes (.inr rfl) _ s
  | shInit => exact .openSession _ s
  | shAbsorb => exact .setSponge _ _ s
  | shFinal => exact .closeSession _ s
  | rsaLd => exact .loadRsa _ _ s
  | aesSetkey => exact .loadAesKey _ _ s
  | rc4Setkey => exact .loadRc4Key _ s
  | rc4Ks => exact .setStream (.inl rfl) _ s
  | rc4Xor => exact .setStream (.inr rfl) _ s

theorem exec_writesAsListed {i : Instr} {s t : State} (h : exec i s = .next t) : WritesAsListed i.op s t := by
  obtain ⟨e, rfl⟩ | ⟨q, u, heffect, rfl⟩ := ends_exec i s t h
  · exact .afterError e.code s
  · exact heffect.writesAsListed.afterOk q

/-- Settles O55: an error writes no register of R20 but `LASTERR`, an effect only those that list its command. -/
theorem onlyListedCommandsWrite : Obligations.OnlyListedCommandsWrite := by
  unfold Obligations.OnlyListedCommandsWrite
  intro i s t h
  have w := exec_writesAsListed h
  exact ⟨w.lanes, w.kValid, w.shPhase, w.shVar, w.shPos, w.pubN, w.pubE, w.prvN, w.prvD, w.rsaValid, w.aesKV, w.aesKey,
    w.rc4Keyed, w.stream⟩

end Sys2Proof.Machine
end

section
/-! The rounds of AES read only the schedule words that the key size uses (44_aes.md R227, R231, R232). -/

namespace Sys2Proof.Machine

variable {W V : Schedule} {k : KeySize}

theorem addRoundKey_congr {rnd : Nat} (s : Block) (h : ∀ c < 4, W[4 * rnd + c]? = V[4 * rnd + c]?) :
    addRoundKey W rnd s = addRoundKey V rnd s := by
  apply block_ext
  intro r c hr hc
  rw [addRoundKey, addRoundKey, cell_blockOf _ r c hr hc, cell_blockOf _ r c hr hc, h c hc]

/-- Round `rnd` reads words of `W` that key size `k` uses. -/
theorem addRoundKey_congr_of_le {rnd : Nat} (s : Block) (h : ∀ i < k.words, W[i]? = V[i]?) (hrnd : rnd ≤ k.nr) :
    addRoundKey W rnd s = addRoundKey V rnd s :=
  addRoundKey_congr s fun c hc => h _ (by unfold KeySize.words; omega)

theorem le_nr_of_mem_middleRounds {rnd : Nat} (h : rnd ∈ middleRounds k) : rnd ≤ k.nr := by
  obtain ⟨i, hi, rfl⟩ := List.mem_range'.1 h
  omega

theorem encBlock_congr (b : Block) (h : ∀ i < k.words, W[i]? = V[i]?) : encBlock k W b = encBlock k V b := by
  have hround (s : Block) (rnd : Nat) (hmem : rnd ∈ middleRounds k) : encRound W s rnd = encRound V s rnd :=
    addRoundKey_congr_of_le _ h (le_nr_of_mem_middleRounds hmem)
  rw [encBlock, encBlock, addRoundKey_congr_of_le b h (Nat.zero_le _), List.foldl_ext _ _ _ hround,
    addRoundKey_congr_of_le _ h le_rfl]

theorem decBlock_congr (b : Block) (h : ∀ i < k.words, W[i]? = V[i]?) : decBlock k W b = decBlock k V b := by
  have hround (s : Block) (rnd : Nat) (hmem : rnd ∈ (middleRounds k).reverse) : decRound W s rnd = decRound V s rnd :=
    congrArg invMixColumns (addRoundKey_congr_of_le _ h (le_nr_of_mem_middleRounds (List.mem_reverse.1 hmem)))
  rw [decBlock, decBlock, addRoundKey_congr_of_le b h le_rfl, List.foldl_ext _ _ _ hround,
    addRoundKey_congr_of_le _ h (Nat.zero_le _)]

end Sys2Proof.Machine
end

section
/-! Register groups that hold no value cannot be seen (10_state.md R21). Each register update takes states that look the
same to states that look the same; each check and each answer reads only what looks the same; so does each command. -/

namespace Sys2Proof.Machine

namespace SameView

variable {s t : State}

/-! The updates. -/

theorem setInbox (h : SameView s t) (es : List HostEvent) : SameView (s.setInbox es) (t.setInbox es) :=
  { h with inbox := rfl }

theorem afterError (h : SameView s t) (op code : Byte) : SameView (afterError op code s) (afterError op code t) :=
  { h with lastErr := rfl, outbox := congrArg (· ++ _) h.outbox }

theorem afterOk (h : SameView s t) (op : Byte) (q : Bytes) : SameView (afterOk op q s) (afterOk op q t) :=
  { h with outbox := congrArg (· ++ _) h.outbox }

theorem setLanes (h : SameView s t) {A B : Lanes} (hAB : A = B) : SameView (s.setLanes A) (t.setLanes B) :=
  { h with lanes := fun _ => hAB, session := fun hopen => ⟨hAB, (h.session hopen).2⟩ }

theorem loadLanes (h : SameView s t) (A : Lanes) : SameView (s.loadLanes A) (t.loadLanes A) :=
  { h with kValid := rfl, lanes := fun _ => rfl, session := fun hopen => ⟨rfl, (h.session hopen).2⟩ }

theorem openSession (h : SameView s t) (v : Variant) : SameView (s.openSession v) (t.openSession v) :=
  { h with kValid := rfl, lanes := fun _ => rfl, shPhase := rfl, session := fun _ => ⟨rfl, rfl, rfl⟩ }

theorem setSponge (h : SameView s t) (hopen : s.shPhase = .absorb) (A : Lanes) (pos : Nat) :
    SameView (s.setSponge A pos) (t.setSponge A pos) :=
  { h with lanes := fun _ => rfl, session := fun _ => ⟨rfl, (h.session hopen).2.1, rfl⟩ }

/-- The free values drawn for `SH.VAR` and `SH.POS` may differ: no session is open (log 4). -/
theorem closeSession (h : SameView s t) (A : Lanes) : SameView (s.closeSession A) (t.closeSession A) :=
  { h with lanes := fun _ => rfl, shPhase := rfl, session := nofun }

theorem loadRsa (h : SameView s t) (r : RsaReg) (v : Nat) : SameView (s.loadRsa r v) (t.loadRsa r v) := by
  cases r with
  | pubN => exact { h with pubNV := rfl, pubN := fun _ => rfl }
  | pubE => exact { h with pubEV := rfl, pubE := fun _ => rfl }
  | prvN => exact { h with prvNV := rfl, prvN := fun _ => rfl }
  | prvD => exact { h with prvDV := rfl, prvD := fun _ => rfl }

/-- Below the key size the words are the loaded ones; the free words beyond it may differ (log 5). -/
theorem loadAesKey (h : SameView s t) (k : KeySize) (ws : List KeyWord) :
    SameView (s.loadAesKey k ws) (t.loadAesKey k ws) :=
  have hwords (i : Nat) (hi : i < k.words) : (s.loadAesKey k ws).aesW[i]? = (t.loadAesKey k ws).aesW[i]? := by
    simp [State.loadAesKey, Vector.getElem?_ofFn, hi]
  { h with aesKV := rfl, aesNK := fun _ => rfl, aesW := fun _ => hwords }

theorem setStream (h : SameView s t) (z : Rc4Stream) : SameView (s.setStream z) (t.setStream z) :=
  { h with stream := fun _ => rfl }

theorem loadRc4Key (h : SameView s t) (z : Rc4Stream) : SameView (s.loadRc4Key z) (t.loadRc4Key z) :=
  { h with rc4Keyed := rfl, stream := fun _ => rfl }

/-- States that a reset left look the same, whatever their data registers hold (log 3). -/
theorem of_resetFrom {u v : State} (hs : ResetFrom u s) (ht : ResetFrom v t) (hin : u.inbox = v.inbox)
    (hout : u.outbox = v.outbox) : SameView s t where
  kValid := hs.kValid.trans ht.kValid.symm
  lanes h := absurd (hs.kValid.symm.trans h) nofun
  shPhase := hs.shPhase.trans ht.shPhase.symm
  session h := absurd (hs.shPhase.symm.trans h) nofun
  pubNV := hs.pubNV.trans ht.pubNV.symm
  pubEV := hs.pubEV.trans ht.pubEV.symm
  prvNV := hs.prvNV.trans ht.prvNV.symm
  prvDV := hs.prvDV.trans ht.prvDV.symm
  pubN h := absurd (hs.pubNV.symm.trans h) nofun
  pubE h := absurd (hs.pubEV.symm.trans h) nofun
  prvN h := absurd (hs.prvNV.symm.trans h) nofun
  prvD h := absurd (hs.prvDV.symm.trans h) nofun
  aesKV := hs.aesKV.trans ht.aesKV.symm
  aesNK h := absurd (hs.aesKV.symm.trans h) nofun
  aesW h := absurd (hs.aesKV.symm.trans h) nofun
  rc4Keyed := hs.rc4Keyed.trans ht.rc4Keyed.symm
  stream h := absurd (hs.rc4Keyed.symm.trans h) nofun
  lastErr := hs.lastErr.trans ht.lastErr.symm
  inbox := (hs.inbox.trans hin).trans ht.inbox.symm
  outbox := (hs.outbox.trans hout).trans ht.outbox.symm

end SameView

/-- The reset leaves the flags, `LASTERR` and the status registers 0 (R47, R281). -/
theorem resetFrom_resetCore (s : State) : ResetFrom s s.resetCore := by
  constructor
  case status => simp [State.status, State.kszField, State.varField, State.absorbing]
  all_goals rfl

namespace SameView

variable {s t : State}

theorem resetCore (h : SameView s t) : SameView s.resetCore t.resetCore :=
  of_resetFrom (resetFrom_resetCore s) (resetFrom_resetCore t) h.inbox h.outbox

/-! What is read of a state. -/

theorem absorbing (h : SameView s t) : s.absorbing = t.absorbing := by
  rw [State.absorbing, State.absorbing, h.shPhase]

/-- The open session's variant, lanes and position. -/
theorem shVar_session (h : SameView s t) (hopen : s.absorbing = true) :
    s.shVar = t.shVar ∧ s.session = t.session := by
  obtain ⟨hlanes, hvar, hpos⟩ := h.session (absorbing_iff.1 hopen)
  exact ⟨hvar, by rw [State.session, State.session, hlanes, hpos]⟩

theorem varField (h : SameView s t) : s.varField = t.varField := by
  rw [State.varField, State.varField, ← h.absorbing]
  split
  next hopen => rw [(h.shVar_session hopen).1]
  next => rfl

theorem kszField (h : SameView s t) : s.kszField = t.kszField := by
  rw [State.kszField, State.kszField, ← h.aesKV]
  split
  next hkey => rw [h.aesNK hkey]
  next => rfl

theorem status (h : SameView s t) : s.status = t.status := by
  simp only [State.status, h.varField, h.kszField, h.absorbing, h.kValid, h.pubNV, h.pubEV, h.prvNV, h.prvDV, h.aesKV,
    h.rc4Keyed]

theorem shCfg (h : SameView s t) : s.shCfg = t.shCfg := by
  rw [State.shCfg, State.shCfg, ← h.absorbing]
  split
  next hopen =>
    obtain ⟨-, hvar, hpos⟩ := h.session (absorbing_iff.1 hopen)
    rw [hvar, hpos]
  next => rfl

theorem rc4Ij (h : SameView s t) : s.rc4Ij = t.rc4Ij := by
  rw [State.rc4Ij, State.rc4Ij, ← h.rc4Keyed]
  split
  next hkey =>
    obtain ⟨-, hi, hj⟩ := Rc4Stream.mk.inj (h.stream hkey)
    rw [hi, hj]
  next => rfl

theorem csr (h : SameView s t) (r : Csr) : s.csr r = t.csr r := by
  cases r with
  | coreId => rfl
  | status => exact h.status
  | lastErr => exact h.lastErr
  | shCfg => exact h.shCfg
  | rc4Ij => exact h.rc4Ij

theorem slotReady (h : SameView s t) (slot : Slot) : s.slotReady slot = t.slotReady slot := by
  cases slot <;> simp only [State.slotReady, h.pubNV, h.pubEV, h.prvNV, h.prvDV]

theorem modulus_exponent (h : SameView s t) {slot : Slot} (hready : s.slotReady slot = true) :
    s.modulus slot = t.modulus slot ∧ s.exponent slot = t.exponent slot := by
  cases slot with
  | pub =>
    obtain ⟨hn, he⟩ := Bool.and_eq_true_iff.1 hready
    exact ⟨h.pubN hn, h.pubE he⟩
  | prv =>
    obtain ⟨hn, hd⟩ := Bool.and_eq_true_iff.1 hready
    exact ⟨h.prvN hn, h.prvD hd⟩

/-- `CHECKED` reads a modulus and an exponent only of a loaded slot (R186). -/
theorem checked (h : SameView s t) (slot : Slot) (p : Bytes) (pad : Bool) :
    checked slot p pad s = checked slot p pad t := by
  unfold Machine.checked
  rw [← h.slotReady slot]
  split
  next => rfl
  next hready =>
    obtain ⟨hn, he⟩ := h.modulus_exponent (Bool.not_eq_false _ ▸ hready)
    rw [hn, he]

theorem encBlock (h : SameView s t) (hkey : s.aesKV = true) : s.encBlock = t.encBlock := by
  funext b
  rw [State.encBlock, State.encBlock, ← h.aesNK hkey]
  exact encBlock_congr b (h.aesW hkey)

theorem decBlock (h : SameView s t) (hkey : s.aesKV = true) : s.decBlock = t.decBlock := by
  funext b
  rw [State.decBlock, State.decBlock, ← h.aesNK hkey]
  exact decBlock_congr b (h.aesW hkey)

end SameView

/-! The parts of a command. -/

namespace SameOutcome

variable {s t : State} {op : Byte}

/-- A check that reads the same in both states: both take its error, or both go on with the checks after it. -/
theorem check (h : SameView s t) {b b' : Bool} {e : ErrorCode} {cs cs' : List Check} {f : State → Result}
    (hcheck : b = b') (hrest : b = false → SameOutcome (attempt op cs s f) (attempt op cs' t f)) :
    SameOutcome (attempt op (⟨b, e⟩ :: cs) s f) (attempt op (⟨b', e⟩ :: cs') t f) := by
  subst hcheck
  cases b with
  | true => exact h.afterError op e.code
  | false => exact hrest rfl

/-- A check of the delivered fields alone. -/
theorem checkFields (h : SameView s t) {b : Bool} {e : ErrorCode} {cs cs' : List Check} {f : State → Result}
    (hrest : SameOutcome (attempt op cs s f) (attempt op cs' t f)) :
    SameOutcome (attempt op (⟨b, e⟩ :: cs) s f) (attempt op (⟨b, e⟩ :: cs') t f) :=
  check h rfl fun _ => hrest

/-- A check that a flag is set. -/
theorem checkFlag (h : SameView s t) {a a' : Bool} {e : ErrorCode} {cs cs' : List Check} {f : State → Result}
    (hflag : a = a') (hrest : a = true → SameOutcome (attempt op cs s f) (attempt op cs' t f)) :
    SameOutcome (attempt op (⟨!a, e⟩ :: cs) s f) (attempt op (⟨!a', e⟩ :: cs') t f) :=
  check h (congrArg _ hflag) fun hset => hrest (by simpa using hset)

/-- All checks passed. -/
theorem passed {f : State → Result} (heffect : SameOutcome (f s) (f t)) :
    SameOutcome (attempt op [] s f) (attempt op [] t f) := heffect

theorem respond (h : SameView s t) {q q' : Bytes} (hq : q = q') :
    SameOutcome (.next (respond op q s)) (.next (respond op q' t)) :=
  hq ▸ h.afterOk op q

theorem answer (h : SameView s t) {r r' : Except ErrorCode Bytes} (hr : r = r') :
    SameOutcome (answer op r s) (answer op r' t) := by
  subst hr
  cases r with
  | error e => exact h.afterError op e.code
  | ok q => exact h.afterOk op q

/-- Both states fault on an open session's position, or neither does (log 11). -/
theorem withSession {f : State → Result} (hvar : s.shVar = t.shVar) (hsession : s.session = t.session)
    (heffect : SameOutcome (f s) (f t)) : SameOutcome (withSession s f) (withSession t f) := by
  have hpos : s.shPos.toNat = t.shPos.toNat := congrArg Sponge.pos hsession
  unfold Machine.withSession
  rw [← hvar, ← hpos]
  split
  next => exact heffect
  next => exact rfl

end SameOutcome

end Sys2Proof.Machine
end

section
/-! Every command answers alike on states that look the same: its checks, then its answer or its effect. -/

namespace Sys2Proof.Machine

namespace SameView

open SameOutcome (check checkFields checkFlag passed)

variable {s t : State} {c : Fields}

/-! SYS. -/

theorem execSysNop (h : SameView s t) : SameOutcome (execSysNop c s) (execSysNop c t) :=
  checkFields h <| checkFields h <| passed <| .respond h rfl

theorem execSysReset (h : SameView s t) : SameOutcome (execSysReset c s) (execSysReset c t) :=
  checkFields h <| checkFields h <| passed <| .respond h.resetCore rfl

theorem execSysRdsr (h : SameView s t) : SameOutcome (execSysRdsr c s) (execSysRdsr c t) := by
  unfold Machine.execSysRdsr
  split
  next => exact h.afterError _ _
  next r _ => exact checkFields h <| passed <| .respond h (congrArg wordBytes (h.csr r))

/-! KP. -/

theorem execKpLdst (h : SameView s t) : SameOutcome (execKpLdst c s) (execKpLdst c t) :=
  checkFields h <| checkFields h <| check h h.absorbing fun _ => passed <| .respond (h.loadLanes _) rfl

theorem execKpRdst (h : SameView s t) : SameOutcome (execKpRdst c s) (execKpRdst c t) :=
  checkFields h <| checkFields h <| checkFlag h h.kValid fun hvalid =>
    passed <| .respond h (by rw [h.lanes hvalid])

theorem execKpPerm (h : SameView s t) : SameOutcome (execKpPerm c s) (execKpPerm c t) :=
  checkFields h <| checkFields h <| check h h.absorbing fun _ => checkFlag h h.kValid fun hvalid =>
    passed <| .respond (h.setLanes (congrArg keccakF (h.lanes hvalid))) rfl

theorem execKpRound (h : SameView s t) : SameOutcome (execKpRound c s) (execKpRound c t) :=
  checkFields h <| checkFields h <| check h h.absorbing fun _ => checkFlag h h.kValid fun hvalid =>
    passed <| .respond (h.setLanes (congrArg (keccakRound · _) (h.lanes hvalid))) rfl

/-! SH. -/

theorem execShInit (h : SameView s t) : SameOutcome (execShInit c s) (execShInit c t) := by
  unfold Machine.execShInit
  split
  next => exact h.afterError _ _
  next v _ => exact checkFields h <| passed <| .respond (h.openSession v) rfl

theorem execShAbsorb (h : SameView s t) : SameOutcome (execShAbsorb c s) (execShAbsorb c t) := by
  refine checkFields h <| checkFields h <| checkFlag h h.absorbing fun hopen => ?_
  obtain ⟨hvar, hsession⟩ := h.shVar_session hopen
  refine passed <| .withSession hvar hsession ?_
  rw [hvar, hsession]
  exact (h.setSponge (absorbing_iff.1 hopen) _ _).afterOk _ _

theorem execShFinal (h : SameView s t) : SameOutcome (execShFinal c s) (execShFinal c t) := by
  refine checkFields h <| checkFields h <| checkFlag h h.absorbing fun hopen => ?_
  obtain ⟨hvar, hsession⟩ := h.shVar_session hopen
  refine check h (by rw [hvar]) fun _ => passed <| .withSession hvar hsession ?_
  rw [hvar, hsession]
  exact (h.closeSession _).afterOk _ _

/-! RSA. -/

theorem execRsaLd (h : SameView s t) : SameOutcome (execRsaLd c s) (execRsaLd c t) := by
  unfold Machine.execRsaLd
  split
  next => exact h.afterError _ _
  next r _ => exact checkFields h <| passed <| .respond (h.loadRsa r _) rfl

theorem execRsaModexp (h : SameView s t) : SameOutcome (execRsaModexp c s) (execRsaModexp c t) := by
  refine checkFields h <| checkFields h <| checkFlag h (h.slotReady _) fun hready => ?_
  obtain ⟨hn, he⟩ := h.modulus_exponent hready
  exact check h (by rw [hn]) fun _ => passed <| .respond h (by rw [hn, he])

/-- `RSA.ENCRYPT`, `RSA.DECRYPT`, `RSA.SIGN` and `RSA.VERIFY` (R187 to R190). -/
theorem rsaChecked (h : SameView s t) (op : Byte) (slot : Slot) :
    SameOutcome (rsaChecked op slot c s) (rsaChecked op slot c t) :=
  checkFields h <| checkFields h <| passed <| .answer h (h.checked slot _ _)

theorem execRsaSignhash (h : SameView s t) : SameOutcome (execRsaSignhash c s) (execRsaSignhash c t) :=
  checkFields h <| checkFields h <| checkFields h <| passed <| .answer h (h.checked .prv _ _)

theorem execRsaVerifyhash (h : SameView s t) : SameOutcome (execRsaVerifyhash c s) (execRsaVerifyhash c t) :=
  checkFields h <| checkFields h <| passed <| .answer h (congrArg (Except.map _) (h.checked .pub _ _))

/-! AES. -/

theorem execAesSetkey (h : SameView s t) : SameOutcome (execAesSetkey c s) (execAesSetkey c t) := by
  refine checkFields h <| checkFields h <| passed ?_
  split
  next => exact h.afterError _ _
  next k _ => exact (h.loadAesKey k _).afterOk _ _

theorem execAesEncblk (h : SameView s t) : SameOutcome (execAesEncblk c s) (execAesEncblk c t) :=
  checkFields h <| checkFields h <| checkFlag h h.aesKV fun hkey =>
    passed <| .respond h (by rw [h.encBlock hkey])

theorem execAesDecblk (h : SameView s t) : SameOutcome (execAesDecblk c s) (execAesDecblk c t) :=
  checkFields h <| checkFields h <| checkFlag h h.aesKV fun hkey =>
    passed <| .respond h (by rw [h.decBlock hkey])

theorem execAesEncrypt (h : SameView s t) : SameOutcome (execAesEncrypt c s) (execAesEncrypt c t) :=
  checkFields h <| checkFields h <| checkFlag h h.aesKV fun hkey =>
    passed <| .respond h (by rw [h.encBlock hkey])

theorem execAesDecrypt (h : SameView s t) : SameOutcome (execAesDecrypt c s) (execAesDecrypt c t) :=
  checkFields h <| checkFields h <| checkFlag h h.aesKV fun hkey =>
    passed <| .answer h (by rw [h.decBlock hkey])

/-! RC4. -/

theorem execRc4Setkey (h : SameView s t) : SameOutcome (execRc4Setkey c s) (execRc4Setkey c t) :=
  checkFields h <| checkFields h <| checkFields h <| passed <| .respond (h.loadRc4Key _) rfl

theorem execRc4Ks (h : SameView s t) : SameOutcome (execRc4Ks c s) (execRc4Ks c t) := by
  refine checkFields h <| checkFields h <| checkFlag h h.rc4Keyed fun hkey => passed ?_
  rw [h.stream hkey]
  exact (h.setStream _).afterOk _ _

theorem execRc4Xor (h : SameView s t) : SameOutcome (execRc4Xor c s) (execRc4Xor c t) := by
  refine checkFields h <| checkFields h <| checkFlag h h.rc4Keyed fun hkey => passed ?_
  rw [h.stream hkey]
  exact (h.setStream _).afterOk _ _

theorem exec (h : SameView s t) (i : Instr) : SameOutcome (exec i s) (exec i t) := by
  cases i with
  | sysNop c => exact h.execSysNop
  | sysReset c => exact h.execSysReset
  | sysRdsr c => exact h.execSysRdsr
  | kpLdst c => exact h.execKpLdst
  | kpRdst c => exact h.execKpRdst
  | kpPerm c => exact h.execKpPerm
  | kpRound c => exact h.execKpRound
  | shInit c => exact h.execShInit
  | shAbsorb c => exact h.execShAbsorb
  | shFinal c => exact h.execShFinal
  | rsaLd c => exact h.execRsaLd
  | rsaModexp c => exact h.execRsaModexp
  | rsaEncrypt c => exact h.rsaChecked Opcode.rsaEncrypt .pub
  | rsaDecrypt c => exact h.rsaChecked Opcode.rsaDecrypt .prv
  | rsaSign c => exact h.rsaChecked Opcode.rsaSign .prv
  | rsaVerify c => exact h.rsaChecked Opcode.rsaVerify .pub
  | rsaSignhash c => exact h.execRsaSignhash
  | rsaVerifyhash c => exact h.execRsaVerifyhash
  | aesSetkey c => exact h.execAesSetkey
  | aesEncblk c => exact h.execAesEncblk
  | aesDecblk c => exact h.execAesDecblk
  | aesEncrypt c => exact h.execAesEncrypt
  | aesDecrypt c => exact h.execAesDecrypt
  | rc4Setkey c => exact h.execRc4Setkey
  | rc4Ks c => exact h.execRc4Ks
  | rc4Xor c => exact h.execRc4Xor

end SameView

/-- Settles O53: both states take the same delivery, and what it does to them looks the same. -/
theorem unwrittenRegistersAreInvisible : Obligations.UnwrittenRegistersAreInvisible := by
  unfold Obligations.UnwrittenRegistersAreInvisible
  intro s t h
  rcases step_cases s with ⟨hin, hs⟩ | ⟨rest, hin, hs⟩ | ⟨c, rest, hin, hdec, hs⟩ | ⟨c, rest, i, hin, hdec, hs⟩
  · rw [hs, step_idle (h.inbox ▸ hin)]
    exact h
  · rw [hs, step_reset (h.inbox ▸ hin)]
    exact (h.setInbox rest).resetCore
  · rw [hs, step_illegal (h.inbox ▸ hin) hdec]
    exact (h.setInbox rest).afterError c.op 0x01
  · rw [hs, step_run (h.inbox ▸ hin) hdec]
    exact (h.setInbox rest).exec i

end Sys2Proof.Machine
end

section
/-! The byte view `KST` of the lanes (00_scope.md R62): which bits of which lane a byte is, reading a run of bytes, and
what XORing a byte into it changes. -/

namespace Sys2Proof.Machine

variable (A : Lanes)

/-- Lane `i` of the vector and of its list are the same lane, 0 past the end of either. -/
theorem getElem?_getD_eq_toList_getD (i : Nat) : A[i]?.getD 0 = A.toList.getD i 0 := by
  rw [List.getD_eq_getElem?_getD, Vector.getElem?_toList]

/-- A byte of `KST` by the lane list (R62). -/
theorem kstByte_eq (k : Nat) : kstByte A k = (A.toList.getD (k / 8) 0).extractLsb' (8 * (k % 8)) 8 := by
  rw [kstByte, getElem?_getD_eq_toList_getD]

/-- Byte `8i + k` of `KST` is byte `k` of lane `i`. -/
theorem kstByte_in_lane (i : Nat) {k : Nat} (hk : k < 8) :
    kstByte A (8 * i + k) = (A.toList.getD i 0).extractLsb' (8 * k) 8 := by
  have hlane : (8 * i + k) / 8 = i := by omega
  have hbyte : (8 * i + k) % 8 = k := by omega
  rw [kstByte_eq, hlane, hbyte]

/-- Lane `i` is the little-endian value of its eight bytes (R62). -/
theorem toNat_lane_eq_sum_kstByte (i : Nat) :
    (A.toList.getD i 0).toNat = ∑ k ∈ Finset.range 8, (kstByte A (8 * i + k)).toNat * 256 ^ k := by
  have hdigit : ∀ k ∈ Finset.range 8, (kstByte A (8 * i + k)).toNat * 256 ^ k =
      (A.toList.getD i 0).toNat / 256 ^ k % 256 * 256 ^ k := by
    intro k hk
    rw [kstByte_in_lane A i (Finset.mem_range.1 hk), toNat_extract_byte]
  rw [Finset.sum_congr rfl hdigit, sum_digits_eq_mod]
  exact (Nat.mod_eq_of_lt (A.toList.getD i 0).isLt).symm

/-! Reading. -/

/-- The bytes of any list of lanes, in index order, each least significant byte first (R63). -/
theorem flatMap_le64inv_eq_map_range (L : List Lane) : L.flatMap le64inv =
    (List.range (8 * L.length)).map fun k => (L.getD (k / 8) 0).extractLsb' (8 * (k % 8)) 8 := by
  induction L with
  | nil => rfl
  | cons v L ih =>
    have hfirst : le64inv v =
        (List.range 8).map fun k => ((v :: L).getD (k / 8) 0).extractLsb' (8 * (k % 8)) 8 := by
      refine List.map_congr_left fun k hk => ?_
      have hlt : k < 8 := List.mem_range.1 hk
      rw [Nat.div_eq_of_lt hlt, Nat.mod_eq_of_lt hlt, List.getD_cons_zero]
    have hrest : ∀ k, ((v :: L).getD ((8 + k) / 8) 0).extractLsb' (8 * ((8 + k) % 8)) 8 =
        (L.getD (k / 8) 0).extractLsb' (8 * (k % 8)) 8 := by
      intro k
      rw [Nat.add_div_left _ (by decide), Nat.add_mod_left, List.getD_cons_succ]
    rw [List.flatMap_cons, ih, hfirst, List.length_cons, Nat.mul_succ, Nat.add_comm, List.range_add, List.map_append,
      List.map_map]
    exact congrArg _ (List.map_congr_left fun k _ => (hrest k).symm)

/-- The 25 lanes read out are the 200 bytes of `KST` (R63, R132). -/
theorem flatMap_le64inv_eq_map_kstByte : A.toList.flatMap le64inv = (List.range 200).map (kstByte A) := by
  rw [flatMap_le64inv_eq_map_range, Vector.length_toList]
  exact List.map_congr_left fun k _ => (kstByte_eq A k).symm

/-- Reading inside `KST` gives that run of the lanes' bytes (R12, R61). -/
theorem kstRead_eq_take_drop {a n : Nat} (h : a + n ≤ 200) :
    kstRead A a n = ((A.toList.flatMap le64inv).drop a).take n := by
  have hrun : ((List.range 200).drop a).take n = List.range' a n := by
    rw [List.range_eq_range', List.drop_range', List.take_range'_of_length_ge (by omega), Nat.mul_one, Nat.zero_add]
  rw [flatMap_le64inv_eq_map_kstByte, ← List.map_drop, ← List.map_take, hrun, kstRead]

/-! XORing a byte in. -/

/-- XORing a byte into `KST` XORs it, moved to its place, into one lane (R62). -/
theorem kstXor_getD {k i : Nat} (b : Byte) (hi : i < 25) : (kstXor A k b).toList.getD i 0 =
    if i = k / 8 then A.toList.getD i 0 ^^^ (b.setWidth 64 <<< (8 * (k % 8))) else A.toList.getD i 0 := by
  simp only [← getElem?_getD_eq_toList_getD, kstXor]
  by_cases hlane : i = k / 8
  · rw [if_pos hlane, ← hlane, Vector.getElem?_setIfInBounds_self_of_lt hi, Option.getD_some]
  · rw [if_neg hlane, Vector.getElem?_setIfInBounds_ne (Ne.symm hlane)]

/-- A byte moved to place `q` of a lane stands at place `q` and nowhere else. -/
theorem extract_shifted_byte (b : Byte) {p q : Nat} (hp : p < 8) (hq : q < 8) :
    ((b.setWidth 64 : Lane) <<< (8 * q)).extractLsb' (8 * p) 8 = if p = q then b else 0 := by
  ext i hi
  rw [BitVec.getElem_extractLsb', BitVec.getLsbD_shiftLeft, BitVec.getLsbD_setWidth]
  by_cases hpq : p = q
  · subst hpq
    have hinside : 8 * p + i < 64 := by omega
    have hbit : 8 * p + i - 8 * p = i := by omega
    simp [hinside, hbit, hi, hi.trans (by decide : 8 < 64)]
  · rcases Nat.lt_or_gt_of_ne hpq with hlt | hgt
    · have hbelow : 8 * p + i < 8 * q := by omega
      simp [hpq, hbelow]
    · have habove : 8 ≤ 8 * p + i - 8 * q := by omega
      simp [hpq, BitVec.getLsbD_of_ge b _ habove]

/-- XORing a byte into `KST` changes that byte and no other (R62). -/
theorem kstByte_kstXor {k j : Nat} (b : Byte) (hj : j < 200) :
    kstByte (kstXor A k b) j = if j = k then kstByte A k ^^^ b else kstByte A j := by
  have hplace := extract_shifted_byte b (Nat.mod_lt j (by decide : 8 > 0)) (Nat.mod_lt k (by decide : 8 > 0))
  rw [kstByte_eq, kstXor_getD A b (by omega), kstByte_eq A j, kstByte_eq A k]
  by_cases hlane : j / 8 = k / 8
  · rw [if_pos hlane, BitVec.extractLsb'_xor, hplace]
    by_cases hjk : j = k
    · simp [hjk]
    · have hother : j % 8 ≠ k % 8 := by omega
      simp [hjk, hother]
  · have hjk : j ≠ k := fun h => hlane (h ▸ rfl)
    rw [if_neg hlane, if_neg hjk]

/-- Settles O26: the byte order by bits and by value, the read, and the XOR by lane and by byte. -/
theorem kstXorChangesOneByte : Obligations.KstXorChangesOneByte := by
  unfold Obligations.KstXorChangesOneByte
  exact ⟨fun A k _ => kstByte_eq A k, fun A i _ => toNat_lane_eq_sum_kstByte A i,
    fun A _ _ h => kstRead_eq_take_drop A h, fun A _ _ b _ hi => kstXor_getD A b hi,
    fun A _ _ b _ hj => kstByte_kstXor A b hj⟩

end Sys2Proof.Machine
end

section
/-! Decoding and encoding undo each other (30_encoding.md R91, R94, R96), the illegal opcodes (R97), and the cutting of an
unframed stream (R99). -/

namespace Sys2Proof.Machine

open BitVec (extractLsb'_append_eq_of_le extractLsb'_append_eq_right)

/-! The opcode table (R96). -/

/-- The row an opcode finds is a row of the table, and it is the opcode's. -/
theorem opcodeRow_eq_some {op : Byte} {r : OpcodeRow} (h : opcodeRow op = some r) : r ∈ opcodeTable ∧ r.op = op :=
  ⟨List.mem_of_find?_eq_some h, by simpa using List.find?_some h⟩

/-- A row builds instructions of its opcode that hold the fields as given. -/
theorem op_fields_build {r : OpcodeRow} (h : r ∈ opcodeTable) (f : Fields) :
    (r.build f).op = r.op ∧ (r.build f).fields = f := by
  unfold opcodeTable at h
  fin_cases h
  all_goals exact ⟨rfl, rfl⟩

/-- A row's format does not depend on the fields. -/
theorem format_build {r : OpcodeRow} (h : r ∈ opcodeTable) (f g : Fields) :
    (r.build f).format = (r.build g).format := by
  unfold opcodeTable at h
  fin_cases h
  all_goals rfl

/-- The opcode of an instruction finds the row that builds it. -/
theorem exists_opcodeRow_op (i : Instr) : ∃ r, opcodeRow i.op = some r ∧ r.build i.fields = i := by
  cases i
  all_goals exact ⟨_, rfl, rfl⟩

/-! Commands and instructions. -/

/-- The three fields of a header put together again are the header (R91). -/
theorem op_append_arg_append_len (c : Command) : c.op ++ c.arg ++ c.len = c.header := by
  unfold Command.op Command.arg Command.len
  ext i hi
  simp only [BitVec.getElem_append, BitVec.getElem_extractLsb']
  split_ifs
  all_goals rw [← BitVec.getLsbD_eq_getElem]; congr 1; omega

/-- A command is an instruction just where it is the instruction's encoding. -/
theorem decodeCommand_eq_some_iff {c : Command} {i : Instr} : decodeCommand c = some i ↔ encode i = c := by
  constructor
  · intro h
    obtain ⟨r, hr, rfl⟩ := Option.map_eq_some_iff.1 h
    obtain ⟨hmem, hop⟩ := opcodeRow_eq_some hr
    obtain ⟨hbuild, hfields⟩ := op_fields_build hmem ⟨c.arg, c.len, c.payload⟩
    rw [encode, hbuild, hfields, hop, op_append_arg_append_len]
  · rintro rfl
    obtain ⟨hop, harg, hlen, hpayload⟩ := Laws.HeaderFields.all i
    obtain ⟨r, hr, hbuild⟩ := exists_opcodeRow_op i
    rw [decodeCommand, hop, harg, hlen, hpayload, hr]
    exact congrArg some hbuild

/-- The header of four bytes is stored as those bytes (R94). -/
theorem wordBytes_headerOf (b0 b1 b2 b3 : Byte) : wordBytes (headerOf b0 b1 b2 b3) = [b0, b1, b2, b3] := by
  simp only [wordBytes, headerOf, List.cons.injEq, and_true]
  refine ⟨?first, ?_, ?_, ?_⟩
  all_goals repeat rw [extractLsb'_append_eq_of_le (by decide)]
  case first => exact BitVec.extractLsb'_eq_self
  all_goals exact extractLsb'_append_eq_right

/-- The command read from bytes is stored as those bytes. -/
theorem toBytes_of_commandOfBytes {bs : Bytes} {c : Command} (h : commandOfBytes bs = some c) : c.toBytes = bs := by
  unfold commandOfBytes at h
  split at h
  next b0 b1 b2 b3 p =>
    cases h
    exact congrArg (· ++ p) (wordBytes_headerOf b0 b1 b2 b3)
  next => cases h

/-- Bytes that decode are a command's, and the command is the instruction. -/
theorem exists_command_of_decode {bs : Bytes} {i : Instr} (h : decode bs = .ok i) :
    ∃ c, c.toBytes = bs ∧ decodeCommand c = some i := by
  cases hc : commandOfBytes bs with
  | none => simp [decode, hc] at h
  | some c =>
    obtain rfl := toBytes_of_commandOfBytes hc
    exact ⟨c, rfl, (decode_toBytes_eq_ok_iff c i).1 h⟩

/-- Settles O1: an instruction's bytes are its encoding's, which decodes to it. -/
theorem decodeInvertsEncode : Obligations.DecodeInvertsEncode := by
  unfold Obligations.DecodeInvertsEncode
  exact fun i => (decode_toBytes_eq_ok_iff (encode i) i).2 (decodeCommand_eq_some_iff.2 rfl)

/-- Settles O2: the bytes are a command's, and that command is the instruction's encoding. -/
theorem encodeInvertsDecode : Obligations.EncodeInvertsDecode := by
  unfold Obligations.EncodeInvertsDecode
  intro bs i h
  obtain ⟨c, rfl, hc⟩ := exists_command_of_decode h
  rw [encodeBytes, decodeCommand_eq_some_iff.1 hc]

/-- Settles O3: the eleven byte sequences are decoded. -/
theorem specEncodingsDecode : Obligations.SpecEncodingsDecode := by
  unfold Obligations.SpecEncodingsDecode
  refine ⟨?_, ?_, ?_, ?_, ?_, ?_, ?_, ?_, ?_, ?_, ?_⟩
  all_goals rfl

/-! Illegal opcodes (R97). -/

/-- The legal opcodes are a run at the start of each unit's sixteen (R91, R96). -/
theorem opcodes_eq_runs : opcodeTable.map (·.op.toNat) =
    List.range' 0x00 3 ++ List.range' 0x10 4 ++ List.range' 0x20 3 ++ List.range' 0x30 8 ++ List.range' 0x40 5 ++
      List.range' 0x50 3 := rfl

theorem opcodeRow_eq_none_iff (op : Byte) : opcodeRow op = none ↔ op.toNat ∉ opcodeTable.map (·.op.toNat) := by
  simp [opcodeRow, List.find?_eq_none, BitVec.toNat_inj]

theorem decodeCommand_eq_none_iff (c : Command) : decodeCommand c = none ↔ opcodeRow c.op = none :=
  Option.map_eq_none_iff

/-- Settles O4: the illegal ranges are what the six runs of legal opcodes leave, and the step answers such a command
with stage 1's error. -/
theorem illegalOpcodesAnswerIllegalCommand : Obligations.IllegalOpcodesAnswerIllegalCommand := by
  unfold Obligations.IllegalOpcodesAnswerIllegalCommand
  intro illegal
  have hillegal (c : Command) : decodeCommand c = none ↔ illegal c.op := by
    rw [decodeCommand_eq_none_iff, opcodeRow_eq_none_iff, opcodes_eq_runs]
    simp only [List.mem_append, List.mem_range'_1, illegal]
    bv_omega
  exact ⟨hillegal, fun s c rest hin hop => step_illegal hin ((hillegal c).2 hop)⟩

/-! An unframed stream (R99). -/

/-- The reader takes the four header bytes, and as many bytes more as they say. -/
theorem nextCommand_wordBytes_append (h : BitVec 32) (p rest : Bytes) (hp : p.length = streamPayloadLength h) :
    nextCommand (wordBytes h ++ (p ++ rest)) = some (⟨h, p⟩, rest) := by
  have hheader := headerOf_extract_bytes h
  simp only [wordBytes, List.cons_append, List.nil_append, nextCommand, hheader, ← hp]
  simp

/-- A header with an illegal opcode takes no payload. -/
theorem streamPayloadLength_of_illegal {h : BitVec 32} (hdec : decodeCommand ⟨h, []⟩ = none) :
    streamPayloadLength h = 0 := by
  simp [streamPayloadLength, hdec]

/-- A header decodes, whatever payload is beside it, to an instruction of the same format. -/
theorem decodeCommand_header (i : Instr) (p : Bytes) :
    ∃ j, decodeCommand ⟨(encode i).header, p⟩ = some j ∧ j.format = i.format := by
  obtain ⟨hop, -⟩ := Laws.header_fields i.op i.fields.arg i.fields.len p
  obtain ⟨r, hr, hbuild⟩ := exists_opcodeRow_op i
  refine ⟨_, by rw [decodeCommand, encode, hop, hr]; rfl, ?_⟩
  conv_rhs => rw [← hbuild]
  exact format_build (opcodeRow_eq_some hr).1 _ _

theorem streamPayloadLength_payload {i : Instr} (hf : i.format = .payload) :
    streamPayloadLength (encode i).header = i.fields.len.toNat := by
  obtain ⟨-, -, hlen⟩ := Laws.header_fields i.op i.fields.arg i.fields.len []
  obtain ⟨j, hj, hformat⟩ := decodeCommand_header i []
  simp only [streamPayloadLength, hj, hformat, hf]
  exact congrArg BitVec.toNat hlen

theorem streamPayloadLength_of_ne_payload {i : Instr} (hf : i.format ≠ .payload) :
    streamPayloadLength (encode i).header = 0 := by
  obtain ⟨j, hj, hformat⟩ := decodeCommand_header i []
  simp only [streamPayloadLength, hj, hformat]
  cases h : i.format with
  | payload => exact absurd h hf
  | noPayload => rfl
  | output => rfl

/-- Settles O5: the header alone tells the payload's length, by the format its opcode has. -/
theorem unframedStreamIsCut : Obligations.UnframedStreamIsCut := by
  unfold Obligations.UnframedStreamIsCut
  refine ⟨fun i rest hlen => ?command, fun h rest hdec => ?illegal⟩
  case illegal => exact nextCommand_wordBytes_append h [] rest (streamPayloadLength_of_illegal hdec).symm
  case command =>
    have hstream : i.fields.payload.length = streamPayloadLength (encode i).header := by
      cases hf : i.format with
      | payload => rw [streamPayloadLength_payload hf]; simpa only [hf] using hlen
      | noPayload => rw [streamPayloadLength_of_ne_payload (by simp [hf])]; simpa only [hf] using hlen
      | output => rw [streamPayloadLength_of_ne_payload (by simp [hf])]; simpa only [hf] using hlen
    rw [encodeBytes, Command.toBytes, List.append_assoc]
    exact nextCommand_wordBytes_append _ _ _ hstream

end Sys2Proof.Machine
end

section
/-! Stages 2 and 3 of the order of checks (60_exceptions.md R305): the checks of `ARG` and of the frame and `LEN`, failed,
and which error a command takes then. -/

namespace Sys2Proof.Machine

/-! Each check of the two stages, failed. -/

section Checks

variable {c : Fields} {op : Byte} {b b' : Bool} {e e' : ErrorCode} {cs : List Check} {s : State} {f : State → Result}

theorem attempt_first_fails (h : b = true) : attempt op (⟨b, e⟩ :: cs) s f = .next (afterError op e.code s) := by
  rw [attempt_cons, if_pos h]

theorem attempt_second_fails (h : b = false) (h' : b' = true) :
    attempt op (⟨b, e⟩ :: ⟨b', e'⟩ :: cs) s f = .next (afterError op e'.code s) := by
  rw [h, attempt_cons, if_neg Bool.false_ne_true, attempt_first_fails h']

theorem attempt_third_fails {b'' : Bool} {e'' : ErrorCode} (h : b = false) (h' : b' = false) (h'' : b'' = true) :
    attempt op (⟨b, e⟩ :: ⟨b', e'⟩ :: ⟨b'', e''⟩ :: cs) s f = .next (afterError op e''.code s) := by
  rw [h, attempt_cons, if_neg Bool.false_ne_true, attempt_second_fails h' h'']

theorem argNotZero_eq_true (h : c.arg.toNat ≠ 0) : argNotZero c = true := decide_eq_true h

theorem argAbove_eq_true {n : Nat} (h : ¬ c.arg.toNat ≤ n) : argAbove n c = true := decide_eq_true (Nat.lt_of_not_le h)

theorem badDigestLength_eq_true {n : Nat} (h : ¬ (20 ≤ n ∧ n ≤ 64)) : badDigestLength n = true := by
  simp only [badDigestLength, Bool.or_eq_true, decide_eq_true_eq]
  omega

theorem rsaTooLong_eq_true (h : Config.rsaFits c.len.toNat = false) : rsaTooLong c = true := by
  simp [rsaTooLong, h]

/-- The framing check is the negation of `framed`, whatever the format. -/
theorem badFrame_eq_not_framed (i : Instr) : badFrame i.format i.fields = !i.framed := by
  unfold Instr.framed
  cases i.format with
  | noPayload => rw [badFrame_noPayload]; simp
  | payload => rw [badFrame_payload]; simp
  | output => rw [badFrame_output]; simp

theorem badFrame_eq_true {i : Instr} (h : i.framed = false) : badFrame i.format i.fields = true := by
  rw [badFrame_eq_not_framed, h, Bool.not_false]

theorem Csr.ofNumber_eq_none {n : Nat} (h : ¬ n ≤ 4) : Csr.ofNumber n = none := by
  obtain ⟨k, rfl⟩ : ∃ k, n = k + 5 := ⟨n - 5, by omega⟩
  rfl

theorem Variant.ofCode_eq_none {n : Nat} (h : ¬ n ≤ 5) : Variant.ofCode n = none := by
  obtain ⟨k, rfl⟩ : ∃ k, n = k + 6 := ⟨n - 6, by omega⟩
  rfl

theorem RsaReg.ofNumber_eq_none {n : Nat} (h : ¬ n ≤ 3) : RsaReg.ofNumber n = none := by
  obtain ⟨k, rfl⟩ : ∃ k, n = k + 4 := ⟨n - 4, by omega⟩
  rfl

theorem KeySize.ofBytes_eq_none {n : Nat} (h : ¬ (n = 16 ∨ n = 24 ∨ n = 32)) : KeySize.ofBytes n = none := by
  unfold KeySize.ofBytes
  split
  case h_4 => rfl
  all_goals simp at h

end Checks

/-- Settles O7: the first check of every command fails. -/
theorem illegalArgumentsAreRefused : Obligations.IllegalArgumentsAreRefused := by
  unfold Obligations.IllegalArgumentsAreRefused
  intro i s h
  unfold exec
  cases i with
  | sysRdsr c =>
    have harg := Csr.ofNumber_eq_none (of_decide_eq_false h)
    simp only [execSysRdsr, harg]
    rfl
  | shInit c =>
    have harg := Variant.ofCode_eq_none (of_decide_eq_false h)
    simp only [execShInit, harg]
    rfl
  | rsaLd c =>
    have harg := RsaReg.ofNumber_eq_none (of_decide_eq_false h)
    simp only [execRsaLd, harg]
    rfl
  | kpRound c => exact attempt_first_fails (argAbove_eq_true (of_decide_eq_false h))
  | rsaModexp c => exact attempt_first_fails (argAbove_eq_true (of_decide_eq_false h))
  | rsaEncrypt c => exact attempt_first_fails (argAbove_eq_true (of_decide_eq_false h))
  | rsaDecrypt c => exact attempt_first_fails (argAbove_eq_true (of_decide_eq_false h))
  | rsaSign c => exact attempt_first_fails (argAbove_eq_true (of_decide_eq_false h))
  | rsaVerify c => exact attempt_first_fails (argAbove_eq_true (of_decide_eq_false h))
  | rsaSignhash c => exact attempt_first_fails (argAbove_eq_true (of_decide_eq_false h))
  | rsaVerifyhash c => exact attempt_first_fails (badDigestLength_eq_true (of_decide_eq_false h))
  | _ => exact attempt_first_fails (argNotZero_eq_true (of_decide_eq_false h))

/-- With a legal `ARG`, a payload that does not fit the format is answered `BadLength` by every command (R93). -/
theorem exec_of_not_framed {i : Instr} {s : State} (harg : i.argLegal = true) (hframe : i.framed = false) :
    exec i s = .next (afterError i.op 0x03 s) := by
  have hbad := badFrame_eq_true hframe
  unfold exec
  cases i with
  | sysRdsr c =>
    obtain ⟨r, hr⟩ := Csr.exists_ofNumber (of_decide_eq_true harg)
    simp only [execSysRdsr, hr]
    exact attempt_first_fails hbad
  | shInit c =>
    obtain ⟨v, hv⟩ := Variant.exists_ofCode (of_decide_eq_true harg)
    simp only [execShInit, hv]
    exact attempt_first_fails hbad
  | rsaLd c =>
    obtain ⟨r, hr⟩ := RsaReg.exists_ofNumber (of_decide_eq_true harg)
    simp only [execRsaLd, hr]
    exact attempt_first_fails (Bool.or_inl hbad)
  | kpRound c => exact attempt_second_fails (argAbove_eq_false (of_decide_eq_true harg)) hbad
  | rsaModexp c => exact attempt_second_fails (argAbove_eq_false (of_decide_eq_true harg)) (Bool.or_inl hbad)
  | rsaEncrypt c => exact attempt_second_fails (argAbove_eq_false (of_decide_eq_true harg)) (Bool.or_inl hbad)
  | rsaDecrypt c => exact attempt_second_fails (argAbove_eq_false (of_decide_eq_true harg)) (Bool.or_inl hbad)
  | rsaSign c => exact attempt_second_fails (argAbove_eq_false (of_decide_eq_true harg)) (Bool.or_inl hbad)
  | rsaVerify c => exact attempt_second_fails (argAbove_eq_false (of_decide_eq_true harg)) (Bool.or_inl hbad)
  | rsaSignhash c => exact attempt_second_fails (argAbove_eq_false (of_decide_eq_true harg)) hbad
  | rsaVerifyhash c =>
    exact attempt_second_fails (badDigestLength_eq_false (of_decide_eq_true harg)) (Bool.or_inl (Bool.or_inl hbad))
  | kpLdst c => exact attempt_second_fails (argNotZero_eq_false (of_decide_eq_true harg)) (Bool.or_inl hbad)
  | aesEncblk c => exact attempt_second_fails (argNotZero_eq_false (of_decide_eq_true harg)) (Bool.or_inl hbad)
  | aesDecblk c => exact attempt_second_fails (argNotZero_eq_false (of_decide_eq_true harg)) (Bool.or_inl hbad)
  | aesEncrypt c => exact attempt_second_fails (argNotZero_eq_false (of_decide_eq_true harg)) (Bool.or_inl hbad)
  | aesDecrypt c =>
    exact attempt_second_fails (argNotZero_eq_false (of_decide_eq_true harg)) (Bool.or_inl (Bool.or_inl hbad))
  | _ => exact attempt_second_fails (argNotZero_eq_false (of_decide_eq_true harg)) hbad

/-- The error of a command whose `LEN` is outside its limits (R305 stage 3): the two `SETKEY` commands and
`RSA.SIGNHASH` have their own. -/
def limitError (i : Instr) : Byte :=
  if i.op = 0x40 ∨ i.op = 0x50 then 0x12 else if i.op = 0x36 then 0x11 else 0x03

/-- With a legal `ARG` and a payload that fits the format, a `LEN` outside the limits takes the limit's error. -/
theorem exec_of_not_lenLegal {i : Instr} {s : State} (harg : i.argLegal = true) (hframe : i.framed = true)
    (hlen : i.lenLegal = false) :
    exec i s = .next (afterError i.op (limitError i) s) := by
  have hgood := badFrame_eq_false hframe
  unfold exec
  cases i with
  | kpLdst c =>
    exact attempt_second_fails (argNotZero_eq_false (of_decide_eq_true harg))
      (Bool.or_inr (decide_eq_true (of_decide_eq_false hlen)))
  | rsaLd c =>
    obtain ⟨r, hr⟩ := RsaReg.exists_ofNumber (of_decide_eq_true harg)
    simp only [execRsaLd, hr]
    exact attempt_first_fails (Bool.or_inr (rsaTooLong_eq_true hlen))
  | rsaModexp c =>
    exact attempt_second_fails (argAbove_eq_false (of_decide_eq_true harg)) (Bool.or_inr (rsaTooLong_eq_true hlen))
  | rsaEncrypt c =>
    exact attempt_second_fails (argAbove_eq_false (of_decide_eq_true harg)) (Bool.or_inr (rsaTooLong_eq_true hlen))
  | rsaDecrypt c =>
    exact attempt_second_fails (argAbove_eq_false (of_decide_eq_true harg)) (Bool.or_inr (rsaTooLong_eq_true hlen))
  | rsaSign c =>
    exact attempt_second_fails (argAbove_eq_false (of_decide_eq_true harg)) (Bool.or_inr (rsaTooLong_eq_true hlen))
  | rsaVerify c =>
    exact attempt_second_fails (argAbove_eq_false (of_decide_eq_true harg)) (Bool.or_inr (rsaTooLong_eq_true hlen))
  | rsaSignhash c =>
    exact attempt_third_fails (argAbove_eq_false (of_decide_eq_true harg)) hgood
      (badDigestLength_eq_true (of_decide_eq_false hlen))
  | rsaVerifyhash c =>
    refine attempt_second_fails (badDigestLength_eq_false (of_decide_eq_true harg)) ?_
    have hlimit : c.arg.toNat ≤ c.len.toNat → Config.rsaFits (c.len.toNat - c.arg.toNat) = false := by
      simpa [Instr.lenLegal] using hlen
    by_cases hshort : c.len.toNat < c.arg.toNat
    · simp [hshort]
    · simp [hlimit (Nat.le_of_not_lt hshort)]
  | aesSetkey c =>
    refine (attempt_pass ?_).trans ?_
    · rw [argNotZero_eq_false (of_decide_eq_true harg)]
      exact congrArg (fun b => firstError [⟨b, .badLength⟩]) hgood
    · simp only [KeySize.ofBytes_eq_none (of_decide_eq_false hlen)]
      rfl
  | aesEncblk c =>
    exact attempt_second_fails (argNotZero_eq_false (of_decide_eq_true harg))
      (Bool.or_inr (decide_eq_true (of_decide_eq_false hlen)))
  | aesDecblk c =>
    exact attempt_second_fails (argNotZero_eq_false (of_decide_eq_true harg))
      (Bool.or_inr (decide_eq_true (of_decide_eq_false hlen)))
  | aesEncrypt c =>
    exact attempt_second_fails (argNotZero_eq_false (of_decide_eq_true harg))
      (Bool.or_inr (decide_eq_true (Nat.lt_of_not_le (of_decide_eq_false hlen))))
  | aesDecrypt c =>
    refine attempt_second_fails (argNotZero_eq_false (of_decide_eq_true harg)) ?_
    have hlimit : ¬ (c.len.toNat ≠ 0 ∧ c.len.toNat % 16 = 0) := of_decide_eq_false hlen
    simp only [Bool.or_eq_true, decide_eq_true_eq]
    omega
  | rc4Setkey c =>
    refine attempt_third_fails (argNotZero_eq_false (of_decide_eq_true harg)) hgood ?_
    have hlimit : ¬ (1 ≤ c.len.toNat ∧ c.len.toNat ≤ 256) := of_decide_eq_false hlen
    simp only [Bool.or_eq_true, decide_eq_true_eq]
    omega
  | _ => cases hlen

/-- Settles O8: the frame is checked before the limits. -/
theorem illegalLengthsAreRefused : Obligations.IllegalLengthsAreRefused := by
  unfold Obligations.IllegalLengthsAreRefused
  intro i s harg h
  cases hframe : i.framed with
  | false => exact exec_of_not_framed harg hframe
  | true => exact exec_of_not_lenLegal harg hframe (by simpa [hframe] using h)

end Sys2Proof.Machine
end

section
/-! Every command goes on and answers once (30_encoding.md R90, 60_exceptions.md R300 to R303): no check and no answer
stops the machine, and a session inside its block raises no fault (41_sha3_shake.md R159). -/

namespace Sys2Proof.Machine

/-! Going on. -/

/-- The outcome is a next state. -/
def GoesOn (r : Result) : Prop := ∃ t, r = .next t

namespace GoesOn

variable {s : State} {f : State → Result}

theorem next (t : State) : GoesOn (.next t) := ⟨t, rfl⟩

theorem attempt {op : Byte} {cs : List Check} (h : firstError cs = none → GoesOn (f s)) :
    GoesOn (attempt op cs s f) := by
  rcases attempt_cases op cs s f with ⟨e, -, hfail⟩ | ⟨hnone, hpass⟩
  · exact hfail ▸ next _
  · exact hpass ▸ h hnone

theorem answer (op : Byte) (r : Except ErrorCode Bytes) : GoesOn (answer op r s) := by
  rcases answer_cases op r s with ⟨e, -, herr⟩ | ⟨q, -, hok⟩
  · exact herr ▸ next _
  · exact hok ▸ next _

/-- Where the checks have seen an open session, the session invariant rules the fault out (log 11). -/
theorem withSession {cs : List Check} (hinv : SessionInv s) (hmem : ⟨!s.absorbing, .badPhase⟩ ∈ cs)
    (hpass : firstError cs = none) (h : GoesOn (f s)) : GoesOn (withSession s f) := by
  have hopen : s.absorbing = true := by simpa using firstError_none.1 hpass _ hmem
  obtain ⟨-, hpos⟩ := hinv (absorbing_iff.1 hopen)
  exact withSession_of_lt hpos ▸ h

end GoesOn

/-- In a state that meets the session invariant every command goes on. -/
theorem goesOn_exec (i : Instr) {s : State} (hinv : SessionInv s) : GoesOn (exec i s) := by
  unfold exec
  cases i with
  | sysRdsr c =>
    show GoesOn (execSysRdsr c s)
    unfold execSysRdsr
    split
    · exact .next _
    · exact .attempt fun _ => .next _
  | shInit c =>
    show GoesOn (execShInit c s)
    unfold execShInit
    split
    · exact .next _
    · exact .attempt fun _ => .next _
  | rsaLd c =>
    show GoesOn (execRsaLd c s)
    unfold execRsaLd
    split
    · exact .next _
    · exact .attempt fun _ => .next _
  | aesSetkey c =>
    refine .attempt fun _ => ?_
    split
    · exact .next _
    · exact .next _
  | shAbsorb c => exact .attempt fun hpass => .withSession hinv (by simp) hpass (.next _)
  | shFinal c => exact .attempt fun hpass => .withSession hinv (by simp) hpass (.next _)
  | rsaEncrypt c => exact .attempt fun _ => .answer _ _
  | rsaDecrypt c => exact .attempt fun _ => .answer _ _
  | rsaSign c => exact .attempt fun _ => .answer _ _
  | rsaVerify c => exact .attempt fun _ => .answer _ _
  | rsaSignhash c => exact .attempt fun _ => .answer _ _
  | rsaVerifyhash c => exact .attempt fun _ => .answer _ _
  | aesDecrypt c => exact .attempt fun _ => .answer _ _
  | _ => exact .attempt fun _ => .next _

/-! Deliveries, responses and `LASTERR` under a command's effect. -/

theorem Effect.inbox_outbox {i : Instr} {s u : State} (h : Effect i s u) :
    u.inbox = s.inbox ∧ u.outbox = s.outbox := by
  cases h
  all_goals simp

/-- Only the reset touches `LASTERR` (R43). -/
theorem Effect.lastErr {i : Instr} {s u : State} (h : Effect i s u) (hop : i.op ≠ Opcode.sysReset) :
    u.lastErr = s.lastErr := by
  cases h with
  | sysReset => exact absurd rfl hop
  | _ => simp

theorem eq_sysReset_of_op {i : Instr} (h : i.op = Opcode.sysReset) : i = .sysReset i.fields := by
  obtain ⟨r, hr, hbuild⟩ := exists_opcodeRow_op i
  rw [h] at hr
  cases hr
  exact hbuild.symm

/-- A command ends with an error, or with one more response and `LASTERR` as it was, 0 after `SYS.RESET`. -/
theorem exec_ends {i : Instr} {s t : State} (h : exec i s = .next t) :
    (∃ e : ErrorCode, t = afterError i.op e.code s) ∨
      ∃ q u, t = afterOk i.op q u ∧ u.inbox = s.inbox ∧ u.outbox = s.outbox ∧
        u.lastErr = if i.op = 0x01 then 0 else s.lastErr := by
  by_cases hop : i.op = Opcode.sysReset
  · obtain ⟨c, rfl⟩ : ∃ c, i = .sysReset c := ⟨_, eq_sysReset_of_op hop⟩
    have hexec : execSysReset c s = .next t := h
    rcases attempt_cases _ _ _ _ with ⟨e, -, hfail⟩ | ⟨-, hpass⟩
    · cases hfail.symm.trans hexec
      exact .inl ⟨e, rfl⟩
    · cases hpass.symm.trans hexec
      exact .inr ⟨[], s.resetCore, rfl, rfl, rfl, rfl⟩
  · obtain herr | ⟨q, u, heffect, rfl⟩ := ends_exec i s t h
    · exact .inl herr
    · obtain ⟨hin, hout⟩ := heffect.inbox_outbox
      exact .inr ⟨q, u, rfl, hin, hout, (heffect.lastErr hop).trans (if_neg hop).symm⟩

/-! The response. -/

/-- The opcode and the code of a status word read back (R92). -/
theorem response_op_code (op code : Byte) (olen : BitVec 16) (q : Bytes) :
    (Response.mk (op ++ code ++ olen) q).op = op ∧ (Response.mk (op ++ code ++ olen) q).code = code := by
  obtain ⟨hop, hcode, -⟩ := Laws.header_fields op code olen q
  exact ⟨hop, hcode⟩

/-- No error has the code of `OK` (R301). -/
theorem ErrorCode.code_ne_zero (e : ErrorCode) : e.code ≠ 0 := by
  cases e <;> decide

/-- Settles O54: the command goes on, to the error state or to a response on its effect. -/
theorem everyCommandAnswersOnce : Obligations.EveryCommandAnswersOnce := by
  unfold Obligations.EveryCommandAnswersOnce
  intro i s hinv
  obtain ⟨t, ht⟩ := goesOn_exec i hinv
  obtain ⟨e, rfl⟩ | ⟨q, u, rfl, hin, hout, herr⟩ := exec_ends ht
  · obtain ⟨hop, hcode⟩ := response_op_code i.op e.code 0 []
    refine ⟨_, ⟨i.op ++ e.code ++ 0#16, []⟩, ht, rfl, rfl, hop, ⟨.error e, hcode⟩, fun _ => ?_, fun hok => ?_⟩
    · exact congrArg (afterError i.op · s) hcode.symm
    · exact absurd (hcode.symm.trans hok) e.code_ne_zero
  · obtain ⟨hop, hcode⟩ := response_op_code i.op 0x00 (BitVec.ofNat 16 q.length) q
    exact ⟨_, ⟨i.op ++ 0x00#8 ++ BitVec.ofNat 16 q.length, q⟩, ht, congrArg (· ++ _) hout, hin, hop, ⟨.ok, hcode⟩,
      fun hne => absurd hcode hne, fun _ => herr⟩

end Sys2Proof.Machine
end

section
/-! The commands of `SH.HASH` compute the sponge function (30_encoding.md R101, 41_sha3_shake.md R154, R158): what
`SH.INIT`, a run of `SH.ABSORB` and `SH.FINAL` leave of an open session. -/

namespace Sys2Proof.Machine

/-! The operands. -/

theorem toNat_ofNat_code (v : Variant) : (BitVec.ofNat 8 v.code).toNat = v.code := by
  cases v <;> rfl

theorem Variant.ofCode_code (v : Variant) : Variant.ofCode v.code = some v := by
  cases v <;> rfl

theorem toNat_ofNat_len {n : Nat} (h : n ≤ 65535) : (BitVec.ofNat 16 n).toNat = n := by
  rw [BitVec.toNat_ofNat, Nat.mod_eq_of_lt (by omega)]

/-! The pieces of a message (R101). -/

/-- The pieces are the message cut, and each fits the port. -/
theorem pieces_spec (fuel : Nat) :
    ∀ m : Bytes, m.length < fuel → (pieces fuel m).flatten = m ∧ ∀ p ∈ pieces fuel m, p.length ≤ 65535 := by
  induction fuel with
  | zero => exact fun m h => absurd h (Nat.not_lt_zero _)
  | succ fuel ih =>
    intro m h
    rw [pieces]
    by_cases hm : m = []
    · simp [hm]
    · have hpos := List.length_pos_of_ne_nil hm
      obtain ⟨hcut, hfits⟩ := ih (m.drop 65535) (by rw [List.length_drop]; omega)
      rw [if_neg hm, List.flatten_cons, hcut, List.take_append_drop]
      exact ⟨rfl, List.forall_mem_cons.2 ⟨List.length_take_le _ _, hfits⟩⟩

/-! Runs of commands. -/

theorem runAll_append {is : List Instr} (js : List Instr) :
    ∀ {s t : State}, runAll is s = .next t → runAll (is ++ js) s = runAll js t := by
  induction is with
  | nil =>
    rintro s t ⟨⟩
    rfl
  | cons i is ih =>
    intro s t h
    rw [List.cons_append, runAll]
    rw [runAll] at h
    cases hexec : exec i s with
    | next u => exact ih (by simpa only [hexec] using h)
    | fault f => simp [hexec] at h
    | refused r => simp [hexec] at h

theorem runAll_cons {i : Instr} {s t : State} (is : List Instr) (h : exec i s = .next t) :
    runAll (i :: is) s = runAll is t := by
  rw [runAll, h]

/-! The session. -/

/-- A session of variant `v` is open in `s`, and `m` has been absorbed into it since `SH.INIT`. -/
structure HasAbsorbed (v : Variant) (m : Bytes) (s : State) : Prop where
  kValid : s.kValid = true
  phase : s.shPhase = .absorb
  variant : s.shVar = v
  session : s.session = absorb v.rateBytes ⟨Vector.replicate 25 0, 0⟩ m

namespace HasAbsorbed

variable {v : Variant} {m : Bytes} {s : State}

/-- After `SH.INIT` nothing has been absorbed. -/
theorem openSession (v : Variant) (s : State) : HasAbsorbed v [] (s.openSession v) := ⟨rfl, rfl, rfl, rfl⟩

theorem afterOk (h : HasAbsorbed v m s) (op : Byte) (q : Bytes) : HasAbsorbed v m (afterOk op q s) := { h with }

/-- The position is inside the block (R159). -/
theorem pos_lt (h : HasAbsorbed v m s) : s.shPos.toNat < s.shVar.rateBytes := by
  have hrate := rateBytes_bounds v
  have hpos := absorb_pos v.rateBytes m ⟨Vector.replicate 25 0, 0⟩ (show 0 < v.rateBytes by omega)
  rw [← h.session] at hpos
  rw [h.variant]
  exact hpos

/-- Absorbing goes on from what has been absorbed (R154). -/
theorem setSponge (h : HasAbsorbed v m s) (p : Bytes) :
    HasAbsorbed v (m ++ p) (s.setSponge (absorb s.shVar.rateBytes s.session p).lanes
      (absorb s.shVar.rateBytes s.session p).pos) := by
  have hrate := rateBytes_bounds s.shVar
  have hpos := absorb_pos s.shVar.rateBytes p s.session h.pos_lt
  refine ⟨h.kValid, h.phase, h.variant, ?_⟩
  calc (s.setSponge _ _).session
      = ⟨(absorb s.shVar.rateBytes s.session p).lanes,
          (BitVec.ofNat 8 (absorb s.shVar.rateBytes s.session p).pos).toNat⟩ := rfl
    _ = absorb s.shVar.rateBytes s.session p := by rw [BitVec.toNat_ofNat, Nat.mod_eq_of_lt (by omega)]
    _ = absorb v.rateBytes ⟨Vector.replicate 25 0, 0⟩ (m ++ p) := by rw [h.variant, h.session, ← absorb_append]

/-- `SH.ABSORB` of a payload that fits the port (R153). -/
theorem exec_shAbsorb (h : HasAbsorbed v m s) {p : Bytes} (hp : p.length ≤ 65535) :
    ∃ t, exec (.shAbsorb (fieldsP 0 p)) s = .next t ∧ HasAbsorbed v (m ++ p) t := by
  refine ⟨_, ?_, (h.setSponge p).afterOk Opcode.shAbsorb []⟩
  have hframe : badFrame .payload (fieldsP 0 p) = false := by
    rw [badFrame_payload, fieldsP, toNat_ofNat_len hp]
    simp
  have harg : argNotZero (fieldsP 0 p) = false := rfl
  unfold exec execShAbsorb
  simp only [attempt_cons, attempt_nil, harg, hframe, absorbing_eq_true h.phase, withSession_of_lt h.pos_lt]
  rfl

/-- `SH.ABSORB` of the pieces one after the other absorbs them all. -/
theorem runAll_shAbsorb {ps : List Bytes} (hps : ∀ p ∈ ps, p.length ≤ 65535) :
    ∀ {m : Bytes} {s : State}, HasAbsorbed v m s →
      ∃ t, runAll (ps.map fun p => .shAbsorb (fieldsP 0 p)) s = .next t ∧ HasAbsorbed v (m ++ ps.flatten) t := by
  induction ps with
  | nil => exact fun {m s} h => ⟨s, rfl, by simpa using h⟩
  | cons p ps ih =>
    intro m s h
    obtain ⟨hp, hrest⟩ := List.forall_mem_cons.1 hps
    obtain ⟨t, hexec, ht⟩ := h.exec_shAbsorb hp
    obtain ⟨u, hrun, hu⟩ := ih hrest ht
    refine ⟨u, (runAll_cons _ hexec).trans hrun, ?_⟩
    rwa [List.flatten_cons, ← List.append_assoc]

/-- `SH.FINAL` with a legal output length answers the sponge function's bytes (R155, R158). -/
theorem exec_shFinal (h : HasAbsorbed v m s) {n : Nat} (hn : n ≤ 65535)
    (hdigest : v.digestBytes = none ∨ v.digestBytes = some n) :
    ∃ A, exec (.shFinal (fieldsO n)) s =
      .next (Machine.afterOk Opcode.shFinal (sponge v m n) (s.closeSession A)) := by
  refine ⟨(finish v n (absorb v.rateBytes ⟨Vector.replicate 25 0, 0⟩ m)).2, ?_⟩
  have hlen : (fieldsO n).len.toNat = n := toNat_ofNat_len hn
  have harg : argNotZero (fieldsO n) = false := rfl
  have hframe : badFrame .output (fieldsO n) = false := rfl
  have hrequest : badDigestRequest v n = false := badDigestRequest_eq_false hdigest
  unfold exec execShFinal
  simp only [attempt_cons, attempt_nil, harg, hframe, hlen, absorbing_eq_true h.phase, withSession_of_lt h.pos_lt,
    h.variant, h.session, hrequest]
  rfl

end HasAbsorbed

/-- `SH.INIT` with a variant's code opens a session of that variant (R152). -/
theorem exec_shInit_code (v : Variant) (s : State) :
    exec (.shInit (fieldsN v.code)) s = .next (afterOk Opcode.shInit [] (s.openSession v)) := by
  have hcode : Variant.ofCode (fieldsN v.code).arg.toNat = some v := by
    rw [fieldsN, toNat_ofNat_code, Variant.ofCode_code]
  have hframe : badFrame .noPayload (fieldsN v.code) = false := rfl
  unfold exec execShInit
  simp only [hcode, attempt_cons, attempt_nil, hframe]
  rfl

/-- Settles O30: the session has absorbed nothing after `SH.INIT`, the message after the pieces, and `SH.FINAL` answers
from there. -/
theorem hashCommandsComputeSponge : Obligations.HashCommandsComputeSponge := by
  unfold Obligations.HashCommandsComputeSponge
  intro s v m n hn hdigest
  obtain ⟨hcut, hfits⟩ := pieces_spec (m.length + 1) m (Nat.lt_succ_self _)
  obtain ⟨t, hrun, ht⟩ := HasAbsorbed.runAll_shAbsorb hfits ((HasAbsorbed.openSession v s).afterOk Opcode.shInit [])
  rw [hcut, List.nil_append] at ht
  obtain ⟨A, hfinal⟩ := ht.exec_shFinal hn hdigest
  have hlength : (sponge v m n).length = n := length_finish _ _ _
  refine ⟨Machine.afterOk Opcode.shFinal (sponge v m n) (t.closeSession A), ?run, rfl, ht.kValid, ?answer, hlength⟩
  case run =>
    calc runAll (hashCommands v.code n m) s
        = runAll [.shFinal (fieldsO n)] t := by
          rw [hashCommands, List.cons_append, runAll_cons _ (exec_shInit_code v s), runAll_append _ hrun]
      _ = .next _ := runAll_cons [] hfinal
  case answer =>
    rw [afterOk, List.getLast?_concat, hlength]
    rfl

end Sys2Proof.Machine
end

section
/-! The commands of unit KP (40_keccak_permutation.md R131 to R134): the lanes as 200 bytes and back, each command as
its checks in order and its effect, and the 24 rounds issued one by one. -/

namespace Sys2Proof.Machine

/-! Lanes from bytes (R62, R131). -/

theorem getD_drop (p : Bytes) (a k : Nat) : (p.drop a).getD k 0 = p.getD (a + k) 0 := by
  simp only [List.getD_eq_getElem?_getD, List.getElem?_drop]

theorem getD_take (p : Bytes) {n k : Nat} (hk : k < n) : (p.take n).getD k 0 = p.getD k 0 := by
  simp only [List.getD_eq_getElem?_getD, List.getElem?_take_of_lt hk]

/-- The first `n` bytes of a string as a little-endian sum; a missing byte counts as 0. -/
theorem foldr_take_bytes_eq_sum (p : Bytes) (n : Nat) : (p.take n).foldr (fun b acc => b.toNat + 256 * acc) 0 =
    ∑ k ∈ Finset.range n, (p.getD k 0).toNat * 256 ^ k := by
  have hmissing : ∀ k ∈ Finset.range n, k ∉ Finset.range (p.take n).length →
      ((p.take n).getD k 0).toNat * 256 ^ k = 0 := by
    intro k _ hk
    rw [List.getD_eq_default _ _ (Nat.le_of_not_lt (hk ∘ Finset.mem_range.2))]
    exact Nat.zero_mul _
  rw [foldr_bytes_eq_sum, Finset.sum_subset (Finset.range_mono (List.length_take_le _ _)) hmissing]
  exact Finset.sum_congr rfl fun k hk => by rw [getD_take p (Finset.mem_range.1 hk)]

/-- `LE64` of any string by its first eight bytes (R11). -/
theorem le64_eq_ofNat_sum (p : Bytes) :
    le64 p = BitVec.ofNat 64 (∑ k ∈ Finset.range 8, (p.getD k 0).toNat * 256 ^ k) := by
  rw [le64, foldr_take_bytes_eq_sum]

theorem lanesOfBytes_eq_ofFn_sum (p : Bytes) : lanesOfBytes p = Vector.ofFn fun i =>
    BitVec.ofNat 64 (∑ k ∈ Finset.range 8, (p.getD (8 * i.val + k) 0).toNat * 256 ^ k) := by
  simp only [lanesOfBytes, le64_eq_ofNat_sum, getD_drop]

/-- Byte `k` of the lane that `LE64` makes of a string is the string's byte `k` (R62). -/
theorem extract_byte_le64 (p : Bytes) {k : Nat} (hk : k < 8) : (le64 p).extractLsb' (8 * k) 8 = p.getD k 0 := by
  have hlt : (p.take 8).foldr (fun b acc => b.toNat + 256 * acc) 0 < 2 ^ 64 :=
    calc _ < 256 ^ (p.take 8).length := foldr_bytes_lt _
      _ ≤ 256 ^ 8 := Nat.pow_le_pow_right (by decide) (List.length_take_le _ _)
  apply BitVec.eq_of_toNat_eq
  rw [toNat_extract_byte, le64, BitVec.toNat_ofNat, Nat.mod_eq_of_lt hlt, foldr_bytes_digit, getD_take p hk]

/-- Byte `k` of the loaded lanes is byte `k` of the string (R62). -/
theorem kstByte_lanesOfBytes (p : Bytes) {k : Nat} (hk : k < 200) : kstByte (lanesOfBytes p) k = p.getD k 0 := by
  have hlane : k / 8 < 25 := by omega
  rw [kstByte, lanesOfBytes, Vector.getElem?_ofFn, dif_pos hlane, Option.getD_some,
    extract_byte_le64 _ (Nat.mod_lt k (by decide)), getD_drop, Nat.div_add_mod]

/-- Reading out lanes loaded from 200 bytes gives the bytes (R131, R132). -/
theorem flatMap_le64inv_lanesOfBytes {p : Bytes} (hp : p.length = 200) :
    (lanesOfBytes p).toList.flatMap le64inv = p := by
  rw [flatMap_le64inv_eq_map_kstByte]
  apply List.ext_getElem
  · simp [hp]
  · intro k hk hk'
    rw [List.getElem_map, List.getElem_range, kstByte_lanesOfBytes p (hp ▸ hk'), List.getD_eq_getElem _ _ hk']

/-! The commands: the checks in order, then the effect. -/

/-- Both branches go on, so the whole goes on, to the state of the branch. -/
theorem ite_next (b : Prop) [Decidable b] (t u : State) :
    (if b then (.next t : Result) else .next u) = .next (if b then t else u) :=
  (apply_ite Host.Outcome.next b t u).symm

theorem argAbove_eq (n : Nat) (c : Fields) (hn : n < 256) : argAbove n c = decide (BitVec.ofNat 8 n < c.arg) := by
  simp only [argAbove, BitVec.lt_def, BitVec.toNat_ofNat, Nat.mod_eq_of_lt hn]

theorem exec_kpLdst (c : Fields) (s : State) : exec (.kpLdst c) s = .next
    (if c.arg ≠ 0 then afterError 0x10 0x02 s
     else if c.payload.length ≠ c.len.toNat ∨ c.len ≠ 200 then afterError 0x10 0x03 s
     else if s.shPhase = .absorb then afterError 0x10 0x05 s
     else afterOk 0x10 [] (s.loadLanes (lanesOfBytes c.payload))) := by
  have hlen : c.len.toNat ≠ 200 ↔ c.len ≠ 200 := by rw [ne_eq, ne_eq, BitVec.toNat_eq]; rfl
  show execKpLdst c s = _
  simp only [execKpLdst, attempt_cons, attempt_nil, argNotZero_eq, badFrame_payload, hlen, ← Bool.decide_or,
    decide_eq_true_iff, absorbing_iff, respond_eq, ite_next]
  rfl

theorem exec_kpRdst (c : Fields) (s : State) : exec (.kpRdst c) s = .next
    (if c.arg ≠ 0 then afterError 0x11 0x02 s
     else if c.len ≠ 0 ∨ c.payload ≠ [] then afterError 0x11 0x03 s
     else if s.kValid = false then afterError 0x11 0x04 s
     else afterOk 0x11 (s.lanes.toList.flatMap le64inv) s) := by
  show execKpRdst c s = _
  simp only [execKpRdst, attempt_cons, attempt_nil, argNotZero_eq, badFrame_noPayload, decide_eq_true_iff,
    Bool.not_eq_true', respond_eq, ite_next]
  rfl

theorem exec_kpPerm (c : Fields) (s : State) : exec (.kpPerm c) s = .next
    (if c.arg ≠ 0 then afterError 0x12 0x02 s
     else if c.len ≠ 0 ∨ c.payload ≠ [] then afterError 0x12 0x03 s
     else if s.shPhase = .absorb then afterError 0x12 0x05 s
     else if s.kValid = false then afterError 0x12 0x04 s
     else afterOk 0x12 [] (s.setLanes (keccakF s.lanes))) := by
  show execKpPerm c s = _
  simp only [execKpPerm, attempt_cons, attempt_nil, argNotZero_eq, badFrame_noPayload, decide_eq_true_iff,
    absorbing_iff, Bool.not_eq_true', respond_eq, ite_next]
  rfl

theorem exec_kpRound (c : Fields) (s : State) : exec (.kpRound c) s = .next
    (if 23 < c.arg then afterError 0x13 0x02 s
     else if c.len ≠ 0 ∨ c.payload ≠ [] then afterError 0x13 0x03 s
     else if s.shPhase = .absorb then afterError 0x13 0x05 s
     else if s.kValid = false then afterError 0x13 0x04 s
     else afterOk 0x13 [] (s.setLanes (keccakRound s.lanes c.arg.toNat))) := by
  show execKpRound c s = _
  simp only [execKpRound, attempt_cons, attempt_nil, argAbove_eq 23 c (by decide), badFrame_noPayload,
    decide_eq_true_iff, absorbing_iff, Bool.not_eq_true', respond_eq, ite_next]
  rfl

/-- Settles O18: the effect's lanes are the sums of R131. -/
theorem kpLdstLoadsLanes : Obligations.KpLdstLoadsLanes := by
  unfold Obligations.KpLdstLoadsLanes
  intro c s
  rw [exec_kpLdst, lanesOfBytes_eq_ofFn_sum]
  rfl

/-- Settles O19: the bytes of the lanes one by one. -/
theorem kpRdstReadsLanes : Obligations.KpRdstReadsLanes := by
  unfold Obligations.KpRdstReadsLanes
  intro c s
  have hbytes := flatMap_le64inv_eq_map_range s.lanes.toList
  rw [Vector.length_toList] at hbytes
  rw [exec_kpRdst, hbytes]

/-- `KP.LDST` of 200 bytes outside a session is accepted (R131). -/
theorem exec_kpLdst_withPayload {s : State} {p : Bytes} (hidle : s.shPhase = .idle) (hp : p.length = 200) :
    exec (.kpLdst (withPayload 0 p)) s = .next (afterOk 0x10 [] (s.loadLanes (lanesOfBytes p))) := by
  rw [exec_kpLdst]
  simp [withPayload, hidle, hp]

/-- `KP.RDST` of valid lanes is accepted (R132). -/
theorem exec_kpRdst_of_valid {s : State} (hvalid : s.kValid = true) :
    exec (.kpRdst (fieldsN 0)) s = .next (afterOk 0x11 (s.lanes.toList.flatMap le64inv) s) := by
  rw [exec_kpRdst]
  simp [fieldsN, hvalid]

/-- Settles O21: the lanes loaded are read out as the payload. -/
theorem kpLdstThenRdstAnswersPayload : Obligations.KpLdstThenRdstAnswersPayload := by
  unfold Obligations.KpLdstThenRdstAnswersPayload
  intro s p hidle hp
  refine ⟨_, _, exec_kpLdst_withPayload hidle hp, exec_kpRdst_of_valid rfl, ?_⟩
  have hread : (afterOk 0x10 [] (s.loadLanes (lanesOfBytes p))).lanes.toList.flatMap le64inv = p :=
    flatMap_le64inv_lanesOfBytes hp
  rw [hread, afterOk, hp]
  rfl

/-! Rounds issued one by one (R134). -/

/-- `KP.ROUND` on valid lanes outside a session is accepted, whatever the index below 24. -/
theorem exec_kpRound_of_ready {s : State} {ir : Nat} (hir : ir < 24) (hidle : s.shPhase = .idle)
    (hvalid : s.kValid = true) :
    exec (.kpRound (fieldsN ir)) s = .next (afterOk 0x13 [] (s.setLanes (keccakRound s.lanes ir))) := by
  have harg : (BitVec.ofNat 8 ir).toNat = ir := by rw [BitVec.toNat_ofNat, Nat.mod_eq_of_lt (by omega)]
  have hlegal : ¬ 23#8 < BitVec.ofNat 8 ir := by
    rw [BitVec.lt_def, harg]
    exact Nat.not_lt.2 (Nat.le_of_lt_succ hir)
  rw [exec_kpRound]
  simp [fieldsN, hlegal, harg, hidle, hvalid]

@[simp] theorem afterOk_lanes (op : Byte) (q : Bytes) (s : State) : (afterOk op q s).lanes = s.lanes := rfl
@[simp] theorem afterOk_kValid (op : Byte) (q : Bytes) (s : State) : (afterOk op q s).kValid = s.kValid := rfl
@[simp] theorem afterOk_shPhase (op : Byte) (q : Bytes) (s : State) : (afterOk op q s).shPhase = s.shPhase := rfl

/-- Of two writes of the lanes the second stands. -/
theorem setLanes_afterOk_setLanes (op : Byte) (q : Bytes) (s : State) (A B : Lanes) :
    (afterOk op q (s.setLanes A)).setLanes B = afterOk op q (s.setLanes B) := rfl

/-- A run of `KP.ROUND` commands writes the lanes and the responses alone, the lanes by the rounds in order. -/
theorem runAll_kpRound {irs : List Nat} (hirs : ∀ ir ∈ irs, ir < 24) :
    ∀ {s : State}, s.shPhase = .idle → s.kValid = true → ∃ out,
      runAll (irs.map fun ir => .kpRound (fieldsN ir)) s =
        .next { s.setLanes (irs.foldl keccakRound s.lanes) with outbox := out } := by
  induction irs with
  | nil => exact fun {s} _ _ => ⟨s.outbox, rfl⟩
  | cons ir irs ih =>
    intro s hidle hvalid
    obtain ⟨hir, hrest⟩ := List.forall_mem_cons.1 hirs
    obtain ⟨out, hrun⟩ := ih hrest (s := afterOk 0x13 [] (s.setLanes (keccakRound s.lanes ir)))
      (by simpa using hidle) (by simpa using hvalid)
    rw [setLanes_afterOk_setLanes, afterOk_lanes, State.setLanes_lanes] at hrun
    exact ⟨out, (runAll_cons _ (exec_kpRound_of_ready hir hidle hvalid)).trans hrun⟩

/-- `KP.PERM` on valid lanes outside a session is accepted (R133). -/
theorem exec_kpPerm_of_ready {s : State} (hidle : s.shPhase = .idle) (hvalid : s.kValid = true) :
    exec (.kpPerm (fieldsN 0)) s = .next (afterOk 0x12 [] (s.setLanes (keccakF s.lanes))) := by
  rw [exec_kpPerm]
  simp [fieldsN, hidle, hvalid]

/-- An answer adds a response and nothing else. -/
theorem setOutbox_eq_afterOk (op : Byte) (q : Bytes) (s : State) (out : List Response) :
    { s with outbox := out } = { afterOk op q s with outbox := out } := rfl

/-- Settles O20: both commands as their checks and effect, and the 24 commands as the fold that `KP.PERM` applies. -/
theorem kpPermAndRoundPermute : Obligations.KpPermAndRoundPermute := by
  unfold Obligations.KpPermAndRoundPermute
  refine ⟨exec_kpPerm, exec_kpRound, fun s hidle hvalid => ?rounds⟩
  case rounds =>
    obtain ⟨out, hrun⟩ := runAll_kpRound (fun ir => List.mem_range.1) hidle hvalid
    exact ⟨_, _, hrun, exec_kpPerm_of_ready hidle hvalid, setOutbox_eq_afterOk _ _ _ _⟩

end Sys2Proof.Machine
end

section
/-! The five step mappings lane by lane (40_keccak_permutation.md R121 to R125): each formula once, the tables against
their generating rules, and the round (R126). -/

namespace Sys2Proof.Machine

variable (A : Lanes)

/-! Reading a lane: the indices count modulo 5. -/

theorem laneAt_congr {x x' y y' : Nat} (hx : x % 5 = x' % 5) (hy : y % 5 = y' % 5) : laneAt A x y = laneAt A x' y' := by
  simp only [laneAt, hx, hy]

theorem columnParity_congr {x x' : Nat} (hx : x % 5 = x' % 5) : columnParity A x = columnParity A x' := by
  simp only [columnParity, laneAt, hx]

theorem laneAt_eq_getD (x y : Nat) : laneAt A x y = A.toList.getD (x % 5 + 5 * (y % 5)) 0 := by
  have hi : x % 5 + 5 * (y % 5) < A.toList.length := by rw [Vector.length_toList]; omega
  rw [List.getD_eq_getElem _ _ hi]
  rfl

/-- A mapping whose formula counts its indices modulo 5 has it at all indices. -/
theorem laneAt_lanesOf_of_periodic {f : Nat → Nat → Lane} (hf : ∀ x y, f (x % 5) (y % 5) = f x y) (x y : Nat) :
    laneAt (lanesOf f) x y = f x y := by
  have hx := Nat.mod_lt x (by decide : 5 > 0)
  have hy := Nat.mod_lt y (by decide : 5 > 0)
  rw [laneAt_congr _ (Nat.mod_mod x 5).symm (Nat.mod_mod y 5).symm, laneAt_lanesOf f _ _ hx hy, hf]

/-! The five mappings. -/

/-- θ (R121). -/
theorem laneAt_theta (x y : Nat) : laneAt (theta A) x y =
    laneAt A x y ^^^ (columnParity A (x + 4) ^^^ (columnParity A (x + 1)).rotateLeft 1) := by
  refine laneAt_lanesOf_of_periodic (fun x y => ?_) x y
  rw [laneAt_congr A (Nat.mod_mod x 5) (Nat.mod_mod y 5), columnParity_congr A (Nat.mod_add_mod x 5 4),
    columnParity_congr A (Nat.mod_add_mod x 5 1)]

/-- ρ (R122). -/
theorem laneAt_rho {x y : Nat} (hx : x < 5) (hy : y < 5) :
    laneAt (rho A) x y = (laneAt A x y).rotateLeft (rhoOffsets.getD (x + 5 * y) 0) :=
  laneAt_lanesOf _ x y hx hy

/-- π by where each lane comes from (R123). -/
theorem laneAt_pi (x y : Nat) : laneAt (pi A) x y = laneAt A (x + 3 * y) x := by
  refine laneAt_lanesOf_of_periodic (fun x y => ?_) x y
  exact laneAt_congr A (by omega) (Nat.mod_mod x 5)

/-- π by where each lane goes (R123). -/
theorem laneAt_pi_target (x y : Nat) : laneAt (pi A) y (2 * x + 3 * y) = laneAt A x y := by
  rw [laneAt_pi]
  exact laneAt_congr A (by omega) rfl

/-- χ (R124). -/
theorem laneAt_chi (x y : Nat) :
    laneAt (chi A) x y = laneAt A x y ^^^ (~~~laneAt A (x + 1) y &&& laneAt A (x + 2) y) := by
  refine laneAt_lanesOf_of_periodic (fun x y => ?_) x y
  rw [laneAt_congr A (Nat.mod_mod x 5) (Nat.mod_mod y 5), laneAt_congr A (Nat.mod_add_mod x 5 1) (Nat.mod_mod y 5),
    laneAt_congr A (Nat.mod_add_mod x 5 2) (Nat.mod_mod y 5)]

/-- ι writes lane `(0,0)` alone (R125). -/
theorem laneAt_iota (ir : Nat) {x y : Nat} (hx : x < 5) (hy : y < 5) : laneAt (iota A ir) x y =
    if x = 0 ∧ y = 0 then laneAt A 0 0 ^^^ roundConstants.getD ir 0 else laneAt A x y := by
  have hindex : 0 = x % 5 + 5 * (y % 5) ↔ x = 0 ∧ y = 0 := by omega
  simp only [laneAt, iota, Vector.getElem_set, hindex]

/-! The tables and their generating rules. -/

/-- The table of R122, column by column. -/
def rhoTable : List (List Nat) :=
  [[0, 36, 3, 41, 18], [1, 44, 10, 45, 2], [62, 6, 43, 15, 61], [28, 55, 25, 21, 56], [27, 20, 39, 8, 14]]

theorem rhoOffsets_eq_rhoTable : ∀ x < 5, ∀ y < 5, rhoOffsets.getD (x + 5 * y) 0 = (rhoTable.getD x []).getD y 0 := by
  decide

/-- The walk of R122's generating rule: the place of its step `t`. -/
def rhoPlace (t : Nat) : Nat × Nat := (fun p : Nat × Nat => (p.2, (2 * p.1 + 3 * p.2) % 5))^[t] (1, 0)

theorem rhoTable_rhoPlace : ∀ t < 24,
    (rhoTable.getD (rhoPlace t).1 []).getD (rhoPlace t).2 0 = (t + 1) * (t + 2) / 2 % 64 := by
  decide

/-- The source lanes of π by lane index (R123). -/
def piSource : List Nat :=
  [0, 6, 12, 18, 24, 3, 9, 10, 16, 22, 1, 7, 13, 19, 20, 4, 5, 11, 17, 23, 2, 8, 14, 15, 21]

theorem piSource_eq : ∀ x < 5, ∀ y < 5, (x + 3 * y) % 5 + 5 * (x % 5) = piSource.getD (x + 5 * y) 0 := by
  decide

/-- One step of R125's shift register. -/
def lfsrStep (R : List Bool) : List Bool :=
  let b := R.getD 7 false
  [b, R.getD 0 false, R.getD 1 false, R.getD 2 false, (R.getD 3 false).xor b, (R.getD 4 false).xor b,
   (R.getD 5 false).xor b, R.getD 6 false]

/-- The bit `rc(t)` of R125. -/
def lfsrBit (t : Nat) : Bool :=
  (lfsrStep^[t % 255] [true, false, false, false, false, false, false, false]).getD 0 false

/-- The seven bits that R125 may set in a constant are those of the shift register, and no other bit is set. -/
theorem roundConstants_getLsbD : ∀ ir < 24, ∀ k < 64, (roundConstants.getD ir 0).getLsbD k =
    (List.range 7).any fun j => decide (k = 2 ^ j - 1) && lfsrBit (j + 7 * ir) := by
  decide +kernel

/-- Settles O22: the formulas, then the tables. -/
theorem keccakStepFormulas : Obligations.KeccakStepFormulas := by
  unfold Obligations.KeccakStepFormulas
  refine ⟨fun A x y hx hy => ⟨?lane, ?theta, ?rho, ?piTarget, ?piSource, ?chi⟩, rhoTable_rhoPlace,
    fun A ir x y _ hx hy => laneAt_iota A ir hx hy, fun ir k hir hk => roundConstants_getLsbD ir hir k hk,
    fun A ir => rfl⟩
  case lane => rw [laneAt_eq_getD, Nat.mod_eq_of_lt hx, Nat.mod_eq_of_lt hy]
  case theta =>
    rw [laneAt_theta, columnParity_congr A (Nat.mod_mod (x + 4) 5).symm,
      columnParity_congr A (Nat.mod_mod (x + 1) 5).symm]
    rfl
  case rho =>
    rw [laneAt_rho A hx hy, rhoOffsets_eq_rhoTable x hx y hy]
    rfl
  case piTarget => rw [laneAt_congr _ rfl (Nat.mod_mod (2 * x + 3 * y) 5), laneAt_pi_target]
  case piSource =>
    rw [laneAt_pi, laneAt_eq_getD, piSource_eq x hx y hy]
    rfl
  case chi =>
    rw [laneAt_chi, laneAt_congr A (Nat.mod_mod (x + 1) 5) rfl, laneAt_congr A (Nat.mod_mod (x + 2) 5) rfl]

end Sys2Proof.Machine
end

section
/-! The step mappings, the rounds and the permutation are bijections (40_keccak_permutation.md R128): on the finitely
many states it is enough that each mapping is injective. -/

namespace Sys2Proof.Machine

open Function (Bijective Injective Involutive Periodic)

/-! The states are finitely many. -/

theorem finite_lanes : Finite Lanes :=
  Finite.of_injective (fun (A : Lanes) (i : Fin 25) => A[i]) fun _ _ h =>
    Vector.ext fun i hi => congrFun h ⟨i, hi⟩

theorem bijective_of_injective {f : Lanes → Lanes} (h : Injective f) : Bijective f :=
  have := finite_lanes
  Finite.injective_iff_bijective.1 h

/-! XOR and rotation of words. -/

section Words

variable {w : Nat} (x y : BitVec w)

theorem rotateLeft_xor (r : Nat) : (x ^^^ y).rotateLeft r = x.rotateLeft r ^^^ y.rotateLeft r := by
  apply BitVec.eq_of_getMsbD_eq
  intro i hi
  simp [BitVec.getMsbD_rotateLeft, hi]

theorem rotateLeft_rotateLeft (r q : Nat) : (x.rotateLeft r).rotateLeft q = x.rotateLeft (r + q) := by
  apply BitVec.eq_of_getMsbD_eq
  intro i hi
  have hbit : (r + (q + i) % w) % w = (r + q + i) % w := by rw [Nat.add_mod_mod, Nat.add_assoc]
  simp [BitVec.getMsbD_rotateLeft, hi, Nat.mod_lt _ (Nat.zero_lt_of_lt hi), hbit]

theorem rotateLeft_width_mul (n : Nat) : x.rotateLeft (w * n) = x := by
  apply BitVec.eq_of_getMsbD_eq
  intro i hi
  simp [BitVec.getMsbD_rotateLeft, hi, Nat.mod_eq_of_lt hi]

/-- The two terms of each side change places. -/
theorem xor_eq_xor_swap {x y u v : BitVec w} (h : x ^^^ u = y ^^^ v) : x ^^^ y = u ^^^ v := by
  apply BitVec.xor_eq_zero_iff.1
  rw [← BitVec.xor_eq_zero_iff.2 h]
  ac_rfl

end Words

/-- Rotating on to a multiple of the width undoes a rotation. -/
theorem rotateLeft_injective (r : Nat) : Injective fun v : Lane => v.rotateLeft r := by
  have hundo (v : Lane) : (v.rotateLeft r).rotateLeft (63 * r) = v := by
    rw [rotateLeft_rotateLeft, show r + 63 * r = 64 * r by omega, rotateLeft_width_mul]
  exact Function.LeftInverse.injective (g := fun v : Lane => v.rotateLeft (63 * r)) hundo

/-! ρ, π, χ and ι. -/

theorem rho_injective : Injective rho := by
  intro A B h
  refine lanes_ext fun x y hx hy => rotateLeft_injective (rhoOffsets.getD (x + 5 * y) 0) ?_
  show (laneAt A x y).rotateLeft _ = (laneAt B x y).rotateLeft _
  rw [← laneAt_rho A hx hy, ← laneAt_rho B hx hy, h]

theorem pi_injective : Injective pi := by
  intro A B h
  refine lanes_ext fun x y _ _ => ?_
  rw [← laneAt_pi_target A, ← laneAt_pi_target B, h]

/-- The row equations of χ for bits, solved for the first input. -/
theorem chi_row_solved (a b c d e : Bool) :
    let f (p q r : Bool) := p ^^ (!q && r)
    a = (f a b c ^^ (!f b c d && (f c d e ^^ (!f d e a && f e a b)))) := by
  decide +revert

/-- A lane of the input of χ from the five lanes of its row in the output. -/
theorem laneAt_eq_of_chi (A : Lanes) (x y : Nat) : laneAt A x y =
    laneAt (chi A) x y ^^^ (~~~laneAt (chi A) (x + 1) y &&&
      (laneAt (chi A) (x + 2) y ^^^ (~~~laneAt (chi A) (x + 3) y &&& laneAt (chi A) (x + 4) y))) := by
  have hfive : laneAt A (x + 5) y = laneAt A x y := laneAt_congr A (by omega) rfl
  have hsix : laneAt A (x + 6) y = laneAt A (x + 1) y := laneAt_congr A (by omega) rfl
  ext i hi
  have hsolved := chi_row_solved (laneAt A x y)[i] (laneAt A (x + 1) y)[i] (laneAt A (x + 2) y)[i]
    (laneAt A (x + 3) y)[i] (laneAt A (x + 4) y)[i]
  simpa only [laneAt_chi, Nat.add_assoc, Nat.reduceAdd, hfive, hsix, BitVec.getElem_xor, BitVec.getElem_and,
    BitVec.getElem_not] using hsolved

theorem chi_injective : Injective chi := by
  intro A B h
  refine lanes_ext fun x y _ _ => ?_
  rw [laneAt_eq_of_chi A, laneAt_eq_of_chi B, h]

/-- ι XORs the same constant in and out. -/
theorem iota_involutive (ir : Nat) : Involutive fun A => iota A ir := by
  intro A
  refine lanes_ext fun x y hx hy => ?_
  simp only [laneAt_iota _ ir hx hy, laneAt_iota _ ir (show 0 < 5 by decide) (show 0 < 5 by decide)]
  split
  next hzero => simp [hzero]
  next => rfl

/-! θ. The difference `C` of the column parities of two states with the same image satisfies a linear relation between
columns and rotations; doubled six times it loses the rotation, and then has no solution but 0. -/

/-- θ adds to a column's parity what it adds to each of its five lanes, since 5 is odd. -/
theorem columnParity_theta (A : Lanes) (x : Nat) : columnParity (theta A) x =
    columnParity A x ^^^ (columnParity A (x + 4) ^^^ (columnParity A (x + 1)).rotateLeft 1) := by
  generalize hD : columnParity A (x + 4) ^^^ (columnParity A (x + 1)).rotateLeft 1 = D
  have hlane (y : Nat) : laneAt (theta A) x y = laneAt A x y ^^^ D := by rw [laneAt_theta, hD]
  simp only [columnParity, hlane]
  calc _ = laneAt A x 0 ^^^ laneAt A x 1 ^^^ laneAt A x 2 ^^^ laneAt A x 3 ^^^ laneAt A x 4 ^^^
        (D ^^^ D ^^^ (D ^^^ D) ^^^ D) := by ac_rfl
    _ = _ := by simp only [BitVec.xor_self, BitVec.zero_xor]

/-- Used twice, the relation doubles: the mixed terms cancel. -/
theorem relation_double {w a b r : Nat} {C : Nat → BitVec w}
    (h : ∀ x, C x = C (x + a) ^^^ (C (x + b)).rotateLeft r) (x : Nat) :
    C x = C (x + 2 * a) ^^^ (C (x + 2 * b)).rotateLeft (2 * r) := by
  calc C x = C (x + a) ^^^ (C (x + b)).rotateLeft r := h x
    _ = (C (x + a + a) ^^^ (C (x + a + b)).rotateLeft r) ^^^
          (C (x + b + a) ^^^ (C (x + b + b)).rotateLeft r).rotateLeft r := by rw [← h (x + a), ← h (x + b)]
    _ = (C (x + a + a) ^^^ (C (x + a + b)).rotateLeft r) ^^^
          ((C (x + a + b)).rotateLeft r ^^^ (C (x + b + b)).rotateLeft (r + r)) := by
      rw [rotateLeft_xor, rotateLeft_rotateLeft, Nat.add_right_comm x b a]
    _ = C (x + 2 * a) ^^^ (C (x + 2 * b)).rotateLeft (2 * r) := by
      rw [BitVec.xor_assoc, ← BitVec.xor_assoc _ _ ((C (x + b + b)).rotateLeft (r + r)), BitVec.xor_self,
        BitVec.zero_xor, Nat.add_assoc, Nat.add_assoc, Nat.two_mul, Nat.two_mul, Nat.two_mul]

theorem relation_pow_two {w a b r : Nat} {C : Nat → BitVec w}
    (h : ∀ x, C x = C (x + a) ^^^ (C (x + b)).rotateLeft r) (n : Nat) :
    ∀ x, C x = C (x + 2 ^ n * a) ^^^ (C (x + 2 ^ n * b)).rotateLeft (2 ^ n * r) := by
  induction n with
  | zero => simpa using h
  | succ n ih =>
    intro x
    simpa only [Nat.pow_succ', Nat.mul_assoc] using relation_double ih x

/-- The relation between columns alone has no solution of period 5 but 0: it gives the period 3 as well. -/
theorem eq_zero_of_columns {w : Nat} {C : Nat → BitVec w} (hper : Periodic C 5)
    (h : ∀ x, C x = C (x + 1) ^^^ C (x + 4)) (x : Nat) : C x = 0 := by
  have hnext (x : Nat) : C (x + 2) = C (x + 1) ^^^ C x := by
    calc C (x + 2) = C (x + 2) ^^^ C (x + 5) ^^^ C (x + 5) := by rw [BitVec.xor_assoc, BitVec.xor_self, BitVec.xor_zero]
      _ = C (x + 1) ^^^ C x := by rw [h (x + 1), hper x]
  have hthree (x : Nat) : C (x + 3) = C x := by
    calc C (x + 3) = C (x + 1) ^^^ C x ^^^ C (x + 1) := by rw [hnext (x + 1), hnext x]
      _ = C x ^^^ (C (x + 1) ^^^ C (x + 1)) := by ac_rfl
      _ = C x := by rw [BitVec.xor_self, BitVec.xor_zero]
  have hone (x : Nat) : C (x + 1) = C x := by
    rw [← hper (x + 1), ← hthree x, ← hthree (x + 3)]
  calc C x = C (x + 1) ^^^ C (x + 4) := h x
    _ = 0 := by rw [hthree (x + 1), BitVec.xor_self]; rfl

/-- After six doublings the rotation is by the whole width of a lane. -/
theorem eq_zero_of_theta_relation {C : Nat → Lane} (hper : Periodic C 5)
    (h : ∀ x, C x = C (x + 4) ^^^ (C (x + 1)).rotateLeft 1) (x : Nat) : C x = 0 := by
  refine eq_zero_of_columns hper (fun x => ?_) x
  have hmod {m n : Nat} (hmn : m % 5 = n % 5) : C m = C n := by rw [← hper.map_mod_nat, hmn, hper.map_mod_nat]
  calc C x = C (x + 2 ^ 6 * 4) ^^^ (C (x + 2 ^ 6 * 1)).rotateLeft (2 ^ 6 * 1) := relation_pow_two h 6 x
    _ = C (x + 1) ^^^ C (x + 4) := by
      rw [show 2 ^ 6 * 1 = 64 * 1 by rfl, rotateLeft_width_mul, hmod (show (x + 2 ^ 6 * 4) % 5 = (x + 1) % 5 by omega),
        hmod (show (x + 64 * 1) % 5 = (x + 4) % 5 by omega)]

theorem theta_injective : Injective theta := by
  intro A B h
  have hcolumn (x : Nat) : columnParity A x ^^^ (columnParity A (x + 4) ^^^ (columnParity A (x + 1)).rotateLeft 1) =
      columnParity B x ^^^ (columnParity B (x + 4) ^^^ (columnParity B (x + 1)).rotateLeft 1) := by
    rw [← columnParity_theta A, ← columnParity_theta B, h]
  have hdiff : ∀ x, columnParity A x ^^^ columnParity B x = 0 := by
    refine eq_zero_of_theta_relation (fun x => ?period) (fun x => ?relation)
    case period => rw [columnParity_congr A (Nat.add_mod_right x 5), columnParity_congr B (Nat.add_mod_right x 5)]
    case relation =>
      rw [xor_eq_xor_swap (hcolumn x), rotateLeft_xor]
      ac_rfl
  have hparity (x : Nat) : columnParity A x = columnParity B x := BitVec.xor_eq_zero_iff.1 (hdiff x)
  refine lanes_ext fun x y _ _ => ?_
  have hlane : laneAt (theta A) x y = laneAt (theta B) x y := by rw [h]
  rw [laneAt_theta, laneAt_theta, hparity, hparity] at hlane
  exact (BitVec.xor_left_inj _).1 hlane

/-! The rounds and the permutation. -/

theorem keccakRound_bijective (ir : Nat) : Bijective fun A => keccakRound A ir :=
  (iota_involutive ir).bijective.comp <| (bijective_of_injective chi_injective).comp <|
    (bijective_of_injective pi_injective).comp <| (bijective_of_injective rho_injective).comp <|
      bijective_of_injective theta_injective

/-- A fold of bijections is a bijection. -/
theorem foldl_bijective {α β : Type} {f : α → β → α} (h : ∀ b, Bijective fun a => f a b) (bs : List β) :
    Bijective fun a => bs.foldl f a := by
  induction bs with
  | nil => exact Function.bijective_id
  | cons b bs ih => exact ih.comp (h b)

/-- Settles O23: the five mappings, and rounds and permutation as their compositions. -/
theorem keccakIsAPermutation : Obligations.KeccakIsAPermutation := by
  unfold Obligations.KeccakIsAPermutation
  exact ⟨bijective_of_injective theta_injective, bijective_of_injective rho_injective,
    bijective_of_injective pi_injective, bijective_of_injective chi_injective,
    fun ir => (iota_involutive ir).bijective, keccakRound_bijective, foldl_bijective keccakRound_bijective _⟩

end Sys2Proof.Machine
end

section
/-! The commands of unit SH (41_sha3_shake.md R151 to R156): each command as its checks in order and its effect, in
every state that meets the session invariant (R159), and absorbing in pieces. -/

namespace Sys2Proof.Machine

theorem not_absorbing_iff {s : State} : (!s.absorbing) = true ↔ s.shPhase = .idle := by
  rw [Bool.not_eq_true', ← Bool.not_eq_true, absorbing_iff]
  cases s.shPhase <;> simp

/-- `SH.FINAL` refuses every length but the digest's, where the variant has one (R155). -/
theorem badDigestRequest_iff {v : Variant} {n : Nat} :
    badDigestRequest v n = true ↔ v.digestBytes ≠ none ∧ v.digestBytes ≠ some n := by
  unfold badDigestRequest
  cases v.digestBytes with
  | none => simp
  | some d => simp [eq_comm (a := n)]

/-- Behind the phase check the session invariant rules the fault out (log 11). -/
theorem attempt_withSession {op : Byte} {cs : List Check} {s : State} {f : State → Result} (hinv : SessionInv s)
    (hmem : ⟨!s.absorbing, .badPhase⟩ ∈ cs) : attempt op cs s (fun t => withSession t f) = attempt op cs s f := by
  cases hfirst : firstError cs with
  | some e => rw [attempt_fail hfirst, attempt_fail hfirst]
  | none =>
    have hopen : s.absorbing = true := by simpa using firstError_none.1 hfirst _ hmem
    obtain ⟨-, hpos⟩ := hinv (absorbing_iff.1 hopen)
    rw [attempt_pass hfirst, attempt_pass hfirst, withSession_of_lt hpos]

/-- The open session's sponge as one value, `State.session` written. -/
def State.setSession (s : State) (t : Sponge) : State := s.setSponge t.lanes t.pos

/-- A position inside the block fits `SH.POS`, so that the sponge reads back (R159). -/
theorem session_setSession {s : State} {t : Sponge} (h : t.pos < s.shVar.rateBytes) : (s.setSession t).session = t := by
  have hrate := rateBytes_bounds s.shVar
  have hpos : (BitVec.ofNat 8 t.pos).toNat = t.pos := by rw [BitVec.toNat_ofNat, Nat.mod_eq_of_lt (by omega)]
  exact congrArg (Sponge.mk t.lanes) hpos

/-- The session invariant asks of a new sponge only that its position is inside the block (R159). -/
theorem SessionInv.setSession {s : State} {t : Sponge} (hinv : SessionInv s) (h : t.pos < s.shVar.rateBytes) :
    SessionInv (s.setSession t) := by
  intro hopen
  obtain ⟨hvalid, -⟩ := hinv hopen
  exact ⟨hvalid, (congrArg Sponge.pos (session_setSession h)).trans_lt h⟩

/-! The commands: the checks in order, then the effect. -/

theorem exec_shInit {c : Fields} {v : Variant} (hv : Variant.ofCode c.arg.toNat = some v) (s : State) :
    exec (.shInit c) s = .next
      (if c.len ≠ 0 ∨ c.payload ≠ [] then afterError 0x20 0x03 s else afterOk 0x20 [] (s.openSession v)) := by
  show execShInit c s = _
  simp only [execShInit, hv, attempt_cons, attempt_nil, badFrame_noPayload, decide_eq_true_iff, respond_eq, ite_next]
  rfl

theorem exec_shAbsorb (c : Fields) {s : State} (hinv : SessionInv s) : exec (.shAbsorb c) s = .next
    (if c.arg ≠ 0 then afterError 0x21 0x02 s
     else if c.payload.length ≠ c.len.toNat then afterError 0x21 0x03 s
     else if s.shPhase = .idle then afterError 0x21 0x05 s
     else afterOk 0x21 [] (s.setSession (absorb s.shVar.rateBytes s.session c.payload))) := by
  show execShAbsorb c s = _
  rw [execShAbsorb, attempt_withSession hinv (by simp)]
  simp only [attempt_cons, attempt_nil, argNotZero_eq, badFrame_payload, decide_eq_true_iff, not_absorbing_iff,
    respond_eq, ite_next]
  rfl

theorem exec_shFinal (c : Fields) {s : State} (hinv : SessionInv s) : exec (.shFinal c) s = .next
    (if c.arg ≠ 0 then afterError 0x22 0x02 s
     else if c.payload ≠ [] then afterError 0x22 0x03 s
     else if s.shPhase = .idle then afterError 0x22 0x05 s
     else if s.shVar.digestBytes ≠ none ∧ s.shVar.digestBytes ≠ some c.len.toNat then afterError 0x22 0x03 s
     else afterOk 0x22 (finish s.shVar c.len.toNat s.session).1
       (s.closeSession (finish s.shVar c.len.toNat s.session).2)) := by
  show execShFinal c s = _
  rw [execShFinal, attempt_withSession hinv (by simp)]
  simp only [attempt_cons, attempt_nil, argNotZero_eq, badFrame_output, decide_eq_true_iff, not_absorbing_iff,
    badDigestRequest_iff, respond_eq, ite_next]
  rfl

/-- Settles O24: the six rows of the table. -/
theorem variantTable : Obligations.VariantTable := by
  unfold Obligations.VariantTable
  exact ⟨fun v => ⟨v.ofCode_code, rfl⟩, rfl, rfl⟩

/-- Settles O25: a code above 5 is an illegal `ARG`, every other is its variant's. -/
theorem shInitOpensSession : Obligations.ShInitOpensSession := by
  unfold Obligations.ShInitOpensSession
  refine fun c s => ⟨fun hcode => ?illegal, fun v hv => ?legal⟩
  case illegal => exact illegalArgumentsAreRefused (.shInit c) s (decide_eq_false (Nat.not_le.2 hcode))
  case legal => exact exec_shInit (hv ▸ v.ofCode_code) s

/-- Settles O27: the fold over the payload is `absorb`. -/
theorem shAbsorbAbsorbs : Obligations.ShAbsorbAbsorbs := by
  unfold Obligations.ShAbsorbAbsorbs
  exact fun c s hinv => exec_shAbsorb c hinv

/-- Settles O29: the bytes and the lanes of the squeeze by the number of permutations before them. -/
theorem shFinalPadsAndSqueezes : Obligations.ShFinalPadsAndSqueezes := by
  unfold Obligations.ShFinalPadsAndSqueezes
  intro c s hinv
  have hrate := rateBytes_bounds s.shVar
  refine ⟨freeVariant s.freeCount, freePos s.freeCount, s.freeCount + 1, ?_⟩
  rw [exec_shFinal c hinv, finish, squeeze_eq _ (by omega)]
  rfl

/-! Absorbing in pieces (R154). -/

/-- `SH.ABSORB` of a payload that fits the port is accepted in an open session (R153). -/
theorem exec_shAbsorb_withPayload {s : State} (hinv : SessionInv s) (hopen : s.shPhase = .absorb) {p : Bytes}
    (hp : p.length ≤ 65535) : exec (.shAbsorb (withPayload 0 p)) s = .next
      (afterOk 0x21 [] (s.setSession (absorb s.shVar.rateBytes s.session p))) := by
  rw [exec_shAbsorb _ hinv]
  simp [withPayload, hopen, Nat.mod_eq_of_lt (Nat.lt_succ_of_le hp)]

/-- Settles O28: the second piece starts from the sponge that the first one leaves. -/
theorem absorbIgnoresCuts : Obligations.AbsorbIgnoresCuts := by
  unfold Obligations.AbsorbIgnoresCuts
  intro s x y hinv hopen hlen
  have hwhole := exec_shAbsorb_withPayload hinv hopen hlen
  rw [List.length_append] at hlen
  obtain ⟨-, hpos⟩ := hinv hopen
  have hlt := absorb_pos s.shVar.rateBytes x s.session hpos
  let t := afterOk 0x21 [] (s.setSession (absorb s.shVar.rateBytes s.session x))
  have hfirst : exec (.shAbsorb (withPayload 0 x)) s = .next t := exec_shAbsorb_withPayload hinv hopen (by omega)
  have hsecond := exec_shAbsorb_withPayload (s := t) (hinv.setSession hlt) hopen (p := y) (by omega)
  have hsession : t.session = absorb s.shVar.rateBytes s.session x := session_setSession hlt
  refine ⟨t, _, _, hfirst, hsecond, hwhole, ?same⟩
  case same =>
    rw [hsession, absorb_append]
    rfl

end Sys2Proof.Machine
end

section
/-! Stage 5 of the order of checks (60_exceptions.md R305): the checks on data, failed, and which error a command takes
then. -/

namespace Sys2Proof.Machine

section Checks

variable {c : Fields} {op : Byte} {s : State}

theorem attempt_fourth_fails {b b' b'' b''' : Bool} {e e' e'' e''' : ErrorCode} {cs : List Check} {f : State → Result}
    (h : b = false) (h' : b' = false) (h'' : b'' = false) (h''' : b''' = true) :
    attempt op (⟨b, e⟩ :: ⟨b', e'⟩ :: ⟨b'', e''⟩ :: ⟨b''', e'''⟩ :: cs) s f =
      .next (afterError op e'''.code s) := by
  rw [h, attempt_cons, if_neg Bool.false_ne_true, attempt_third_fails h' h'' h''']

theorem badDigestRequest_eq_true {v : Variant} {n : Nat} (h : ¬ (v.digestBytes = none ∨ v.digestBytes = some n)) :
    badDigestRequest v n = true := badDigestRequest_iff.2 (not_or.1 h)

/-- `CHECKED` on a loaded slot refuses an input that is not below the modulus (R186). -/
theorem checked_of_modulus_le {slot : Slot} {p : Bytes} (pad : Bool) (hready : s.slotReady slot = true)
    (hdata : ¬ os2ip p < s.modulus slot) : checked slot p pad s = .error .dataTooLarge := by
  rw [checked, if_neg (by simp [hready]), if_pos (Nat.le_of_not_lt hdata)]

/-- What `RSA.ENCRYPT`, `RSA.DECRYPT`, `RSA.SIGN` and `RSA.VERIFY` share (R187 to R190). -/
theorem rsaChecked_of_modulus_le {slot : Slot} (harg : c.arg.toNat ≤ 1) (hframe : badFrame .payload c = false)
    (hlen : Config.rsaFits c.len.toNat = true) (hready : s.slotReady slot = true)
    (hdata : ¬ os2ip c.payload < s.modulus slot) : rsaChecked op slot c s = .next (afterError op 0x10 s) := by
  simp only [rsaChecked, attempt_cons, attempt_nil, argAbove_eq_false harg, hframe, rsaTooLong_eq_false hlen,
    checked_of_modulus_le _ hready hdata]
  rfl

end Checks

/-- Settles O10: the commands with a check on data, each with its stages before it passed. -/
theorem unfitDataIsRefused : Obligations.UnfitDataIsRefused := by
  unfold Obligations.UnfitDataIsRefused
  intro i s harg hframe hlen hflags hdata
  have hgood := badFrame_eq_false hframe
  unfold exec
  cases i with
  | shFinal c =>
    have hphase : (!s.absorbing) = false := by simp [absorbing_eq_true (of_decide_eq_true hflags)]
    exact attempt_fourth_fails (argNotZero_eq_false (of_decide_eq_true harg)) hgood hphase
      (badDigestRequest_eq_true (of_decide_eq_false hdata))
  | rsaModexp c =>
    have hready : s.slotReady (slotOf c) = true := flagsReady_rsaModexp ▸ hflags
    have hmod : s.modulus (slotOf c) = 0 := of_not_not (of_decide_eq_false (dataReady_rsaModexp ▸ hdata))
    exact attempt_fourth_fails (argAbove_eq_false (of_decide_eq_true harg))
      (Bool.or_eq_false_iff.2 ⟨hgood, rsaTooLong_eq_false hlen⟩) (by simp [hready]) (decide_eq_true hmod)
  | rsaEncrypt c =>
    exact rsaChecked_of_modulus_le (of_decide_eq_true harg) hgood hlen (slotReady_pub (of_decide_eq_true hflags))
      (of_decide_eq_false hdata)
  | rsaDecrypt c =>
    exact rsaChecked_of_modulus_le (of_decide_eq_true harg) hgood hlen (slotReady_prv (of_decide_eq_true hflags))
      (of_decide_eq_false hdata)
  | rsaSign c =>
    exact rsaChecked_of_modulus_le (of_decide_eq_true harg) hgood hlen (slotReady_prv (of_decide_eq_true hflags))
      (of_decide_eq_false hdata)
  | rsaVerify c =>
    exact rsaChecked_of_modulus_le (of_decide_eq_true harg) hgood hlen (slotReady_pub (of_decide_eq_true hflags))
      (of_decide_eq_false hdata)
  | rsaSignhash c =>
    have hframe : badFrame .payload c = false := hgood
    have hdigest := badDigestLength_eq_false (of_decide_eq_true hlen)
    have hready := slotReady_prv (of_decide_eq_true hflags)
    simp only [execRsaSignhash, attempt_cons, attempt_nil, argAbove_eq_false (of_decide_eq_true harg), hframe, hdigest,
      checked_of_modulus_le _ hready (of_decide_eq_false hdata)]
    rfl
  | rsaVerifyhash c =>
    have hframe : badFrame .payload c = false := hgood
    obtain ⟨hmin, hfits⟩ : c.arg.toNat ≤ c.len.toNat ∧ Config.rsaFits (c.len.toNat - c.arg.toNat) = true := by
      simpa [Instr.lenLegal] using hlen
    have hshort : decide (c.len.toNat < c.arg.toNat) = false := decide_eq_false (Nat.not_lt.2 hmin)
    have hready := slotReady_pub (of_decide_eq_true hflags)
    simp only [execRsaVerifyhash, attempt_cons, attempt_nil, badDigestLength_eq_false (of_decide_eq_true harg), hframe,
      hshort, hfits, checked_of_modulus_le _ hready (of_decide_eq_false hdata)]
    rfl
  | aesDecrypt c =>
    have hframe : badFrame .payload c = false := hgood
    obtain ⟨hsome, hblocks⟩ : c.len.toNat ≠ 0 ∧ c.len.toNat % 16 = 0 := of_decide_eq_true hlen
    have hkey : s.aesKV = true := hflags
    have hpad : pkcs7Unpad (ecb s.decBlock c.payload) = none :=
      Option.isNone_iff_eq_none.1 (Option.isSome_eq_false_iff.1 hdata)
    have hunpad : unpadOrError (ecb s.decBlock c.payload) = .error .badPadding := by rw [unpadOrError, hpad]
    simp only [execAesDecrypt, attempt_cons, attempt_nil, argNotZero_eq_false (of_decide_eq_true harg), hframe,
      decide_eq_false hsome, decide_eq_false (not_not.2 hblocks), hkey, hunpad]
    rfl
  | _ => cases hdata

end Sys2Proof.Machine
end

section
/-! The AES key schedule follows its recurrence (44_aes.md R225, R233). -/

namespace Sys2Proof.Machine

/-- `ws` is the first `n` words of a schedule: those behind the key's own are each the `nextWord` of the ones before
(R225). -/
structure IsExpansion (k : KeySize) (n : Nat) (ws : List KeyWord) : Prop where
  length : ws.length = n
  recurrence : ∀ i, k.nk ≤ i → i < n → ws.getD i .zero = nextWord k ws i

theorem nk_pos (k : KeySize) : 0 < k.nk := by cases k <;> decide

theorem words_le (k : KeySize) : k.words ≤ 60 := by cases k <;> decide

theorem nk_le_words (k : KeySize) : k.nk ≤ k.words := by cases k <;> decide

/-- `W[i]` reads words before `i` alone, so that words put behind do not change it. -/
theorem nextWord_append {k : KeySize} {ws : List KeyWord} (vs : List KeyWord) {i : Nat} (hlow : k.nk ≤ i)
    (hi : i ≤ ws.length) : nextWord k (ws ++ vs) i = nextWord k ws i := by
  have hnk := nk_pos k
  rw [nextWord, nextWord, List.getD_append _ _ _ _ (by omega), List.getD_append _ _ _ _ (by omega)]

/-- One more word by the recurrence. -/
theorem IsExpansion.append_nextWord {k : KeySize} {n : Nat} {ws : List KeyWord} (h : IsExpansion k n ws) :
    IsExpansion k (n + 1) (ws ++ [nextWord k ws n]) := by
  obtain ⟨rfl, hrec⟩ := h
  refine ⟨by simp, fun i hlow hi => ?_⟩
  rw [nextWord_append _ hlow (by omega)]
  obtain hlt | rfl : i < ws.length ∨ i = ws.length := by omega
  · rw [List.getD_append _ _ _ _ hlt, hrec i hlow hlt]
  · simp

theorem IsExpansion.foldl_nextWord {k : KeySize} (m : Nat) : ∀ {n : Nat} {ws : List KeyWord}, IsExpansion k n ws →
    IsExpansion k (n + m) ((List.range' n m).foldl (fun ws i => ws ++ [nextWord k ws i]) ws) := by
  induction m with
  | zero => exact fun h => h
  | succ m ih =>
    intro n ws h
    rw [List.range'_succ, List.foldl_cons, Nat.add_comm m 1, ← Nat.add_assoc]
    exact ih h.append_nextWord

theorem isExpansion_expandKey (k : KeySize) (key : Bytes) : IsExpansion k k.words (expandKey k key) := by
  have hown : IsExpansion k k.nk (keyWords k key) := ⟨by simp [keyWords], fun i hlow hi => absurd hi (by omega)⟩
  have hall := hown.foldl_nextWord (k.words - k.nk)
  rwa [Nat.add_sub_cancel' (nk_le_words k)] at hall

/-- The schedule register holds the expanded words where the key size uses it. -/
theorem loadAesKey_aesW_getD {s : State} {k : KeySize} {ws : List KeyWord} {i : Nat} (hi : i < k.words) :
    (s.loadAesKey k ws).aesW[i]?.getD .zero = ws.getD i .zero := by
  have hbound : i < 60 := hi.trans_le (words_le k)
  rw [State.loadAesKey, Vector.getElem?_ofFn, dif_pos hbound, Option.getD_some, if_pos hi]
  rfl

/-- `AES.SETKEY` leaves a key schedule (R233). -/
theorem followsSchedule_loadAesKey (s : State) (k : KeySize) (key : Bytes) :
    FollowsSchedule k (s.loadAesKey k (expandKey k key)).aesW := by
  have hnk := nk_pos k
  intro i hlow hi
  rw [loadAesKey_aesW_getD hi, loadAesKey_aesW_getD (by omega), loadAesKey_aesW_getD (by omega)]
  exact (isExpansion_expandKey k key).recurrence i hlow hi

end Sys2Proof.Machine
end

section
/-! The RC4 array is a permutation: the key scheduling makes one, and every generation step swaps (45_rc4.md R261, R263;
10_state.md R32). -/

namespace Sys2Proof.Machine

/-- A swap permutes the entries. -/
theorem IsPermutation.arrSwap {S : Rc4Array} (h : IsPermutation S) (i j : Byte) : IsPermutation (arrSwap S i j) := by
  have hperm : (Machine.arrSwap S i j).toList.Perm S.toList :=
    Vector.perm_iff_toList_perm.1 (Vector.swap_perm i.isLt j.isLt)
  exact fun v => (hperm.count_eq v).trans (h v)

theorem isPermutation_arrIdentity : IsPermutation arrIdentity := by
  have hinj : Function.Injective fun i : Fin 256 => BitVec.ofNat 8 i.val := fun i j h => Fin.ext (by
    simpa [Nat.mod_eq_of_lt i.isLt, Nat.mod_eq_of_lt j.isLt] using congrArg BitVec.toNat h)
  intro v
  rw [arrIdentity, Vector.toList_ofFn]
  exact List.count_eq_one_of_mem (List.nodup_ofFn.2 hinj) ((List.mem_ofFn' _ _).2 ⟨v.toFin, by simp⟩)

theorem isPermutation_ksa (key : Bytes) : IsPermutation (ksa key) := by
  have hsteps (is : List Nat) : ∀ t : Rc4Array × Byte, IsPermutation t.1 →
      IsPermutation (is.foldl (ksaStep key) t).1 := by
    induction is with
    | nil => exact fun t h => h
    | cons i is ih => exact fun t h => ih _ (h.arrSwap _ _)
  exact hsteps _ _ isPermutation_arrIdentity

theorem IsPermutation.streamAfter (n : Nat) : ∀ {t : Rc4Stream}, IsPermutation t.arr →
    IsPermutation (streamAfter n t).arr := by
  induction n with
  | zero => exact fun h => h
  | succ n ih => exact fun h => ih (h.arrSwap _ _)

end Sys2Proof.Machine
end

section
/-! The invariant is inductive (41_sha3_shake.md R159, 10_state.md R27, R32, R43, 44_aes.md R225, 30_encoding.md R92): a
command is refused or accepted, and either end keeps each part of it. -/

namespace Sys2Proof.Machine

/-! A command is refused, or it passes every stage of R305. -/

/-- The command takes an error. -/
def Refused (i : Instr) (s : State) : Prop := ∃ e : ErrorCode, exec i s = .next (afterError i.op e.code s)

/-- A command with a check that fails takes an error, that check's or an earlier one's. -/
theorem attempt_of_fails {op : Byte} {cs : List Check} {s : State} {f : State → Result} {c : Check} (hmem : c ∈ cs)
    (hfails : c.fails = true) : ∃ e : ErrorCode, attempt op cs s f = .next (afterError op e.code s) := by
  rcases attempt_cases op cs s f with ⟨e, -, hfail⟩ | ⟨hnone, -⟩
  · exact ⟨e, hfail⟩
  · exact absurd (firstError_none.1 hnone c hmem) (by simp [hfails])

/-- A command behind its checks that answers an error takes an error. -/
theorem attempt_answer_error {op : Byte} {cs : List Check} {s : State} {r : State → Except ErrorCode Bytes}
    (h : ∃ e, r s = .error e) :
    ∃ e : ErrorCode, attempt op cs s (fun t => answer op (r t) t) = .next (afterError op e.code s) := by
  obtain ⟨e', he'⟩ := h
  rcases attempt_cases op cs s (fun t => answer op (r t) t) with ⟨e, -, hfail⟩ | ⟨-, hpass⟩
  · exact ⟨e, hfail⟩
  · exact ⟨e', by rw [hpass, he', answer_error]⟩

theorem checked_of_not_ready {slot : Slot} {s : State} (p : Bytes) (pad : Bool) (h : ¬ s.slotReady slot = true) :
    checked slot p pad s = .error .notReady := if_pos (Bool.not_eq_true _ ▸ h)

theorem refused_of_not_argLegal {i : Instr} {s : State} (h : i.argLegal = false) : Refused i s := by
  have hexec := illegalArgumentsAreRefused i s h
  split_ifs at hexec
  · exact ⟨.hashLengthOutOfBounds, hexec⟩
  · exact ⟨.illegalOperand, hexec⟩

theorem refused_of_not_lenLegal {i : Instr} {s : State} (harg : i.argLegal = true) (hframe : i.framed = true)
    (h : i.lenLegal = false) : Refused i s := by
  have hexec := exec_of_not_lenLegal (s := s) harg hframe h
  unfold limitError at hexec
  split_ifs at hexec
  · exact ⟨.invalidKeySize, hexec⟩
  · exact ⟨.hashLengthOutOfBounds, hexec⟩
  · exact ⟨.badLength, hexec⟩

theorem refused_of_not_dataReady {i : Instr} {s : State} (harg : i.argLegal = true) (hframe : i.framed = true)
    (hlen : i.lenLegal = true) (hflags : flagsReady s i = true) (h : dataReady s i = false) : Refused i s := by
  have hexec := unfitDataIsRefused i s harg hframe hlen hflags h
  split_ifs at hexec
  · exact ⟨.badLength, hexec⟩
  · exact ⟨.modulusZero, hexec⟩
  · exact ⟨.badPadding, hexec⟩
  · exact ⟨.dataTooLarge, hexec⟩

theorem absorbing_of_not_idle {s : State} (h : ¬ s.shPhase = .idle) : s.absorbing = true := by
  simpa [← not_absorbing_iff] using h

theorem slotReady_pub_iff {s : State} : s.slotReady .pub = true ↔ s.pubNV = true ∧ s.pubEV = true :=
  Bool.and_eq_true_iff

theorem slotReady_prv_iff {s : State} : s.slotReady .prv = true ↔ s.prvNV = true ∧ s.prvDV = true :=
  Bool.and_eq_true_iff

/-- `KP.PERM` and `KP.ROUND` check for an open session, then for valid lanes (R133, R134). -/
theorem attempt_of_not_idle_valid {op : Byte} {c c' : Check} {s : State} {f : State → Result}
    (h : ¬ (s.shPhase = .idle ∧ s.kValid = true)) :
    ∃ e : ErrorCode, attempt op [c, c', ⟨s.absorbing, .badPhase⟩, ⟨!s.kValid, .notReady⟩] s f =
      .next (afterError op e.code s) := by
  by_cases hidle : s.shPhase = .idle
  · exact attempt_of_fails (c := ⟨!s.kValid, .notReady⟩) (by simp) (by simpa [hidle] using h)
  · exact attempt_of_fails (c := ⟨s.absorbing, .badPhase⟩) (by simp) (absorbing_of_not_idle hidle)

/-- A flag that R342 wants and the state has not fails one of the checks. -/
theorem refused_of_not_flagsReady {i : Instr} {s : State} (h : flagsReady s i = false) : Refused i s := by
  unfold Refused exec
  cases i with
  | kpLdst c =>
    exact attempt_of_fails (c := ⟨s.absorbing, .badPhase⟩) (by simp) (absorbing_of_not_idle (of_decide_eq_false h))
  | kpRdst c => exact attempt_of_fails (c := ⟨!s.kValid, .notReady⟩) (by simp) (congrArg not h)
  | kpPerm c => exact attempt_of_not_idle_valid (of_decide_eq_false h)
  | kpRound c => exact attempt_of_not_idle_valid (of_decide_eq_false h)
  | shAbsorb c => exact attempt_of_fails (c := ⟨!s.absorbing, .badPhase⟩) (by simp) (congrArg not h)
  | shFinal c => exact attempt_of_fails (c := ⟨!s.absorbing, .badPhase⟩) (by simp) (congrArg not h)
  | rsaModexp c =>
    have hready : s.slotReady (slotOf c) = false := flagsReady_rsaModexp ▸ h
    exact attempt_of_fails (c := ⟨!s.slotReady (slotOf c), .notReady⟩) (by simp) (congrArg not hready)
  | rsaEncrypt c =>
    exact attempt_answer_error ⟨_, checked_of_not_ready _ _ (mt slotReady_pub_iff.1 (of_decide_eq_false h))⟩
  | rsaDecrypt c =>
    exact attempt_answer_error ⟨_, checked_of_not_ready _ _ (mt slotReady_prv_iff.1 (of_decide_eq_false h))⟩
  | rsaSign c =>
    exact attempt_answer_error ⟨_, checked_of_not_ready _ _ (mt slotReady_prv_iff.1 (of_decide_eq_false h))⟩
  | rsaVerify c =>
    exact attempt_answer_error ⟨_, checked_of_not_ready _ _ (mt slotReady_pub_iff.1 (of_decide_eq_false h))⟩
  | rsaSignhash c =>
    exact attempt_answer_error ⟨_, checked_of_not_ready _ _ (mt slotReady_prv_iff.1 (of_decide_eq_false h))⟩
  | rsaVerifyhash c =>
    have hready := mt slotReady_pub_iff.1 (of_decide_eq_false h)
    exact attempt_answer_error ⟨_, congrArg (Except.map _) (checked_of_not_ready _ _ hready)⟩
  | aesEncblk c => exact attempt_of_fails (c := ⟨!s.aesKV, .notReady⟩) (by simp) (congrArg not h)
  | aesDecblk c => exact attempt_of_fails (c := ⟨!s.aesKV, .notReady⟩) (by simp) (congrArg not h)
  | aesEncrypt c => exact attempt_of_fails (c := ⟨!s.aesKV, .notReady⟩) (by simp) (congrArg not h)
  | aesDecrypt c => exact attempt_of_fails (c := ⟨!s.aesKV, .notReady⟩) (by simp) (congrArg not h)
  | rc4Ks c => exact attempt_of_fails (c := ⟨!s.rc4Keyed, .notReady⟩) (by simp) (congrArg not h)
  | rc4Xor c => exact attempt_of_fails (c := ⟨!s.rc4Keyed, .notReady⟩) (by simp) (congrArg not h)
  | _ => cases h

/-- A command that is not refused has passed stage after stage. -/
theorem accepted_of_not_refused {i : Instr} {s : State} (hsession : SessionInv s) (hrsa : RsaInv s)
    (hno : ¬ Refused i s) : Accepted i s := by
  have harg := Bool.eq_true_of_not_eq_false fun h => hno (refused_of_not_argLegal h)
  have hframe := Bool.eq_true_of_not_eq_false fun h => hno ⟨.badLength, exec_of_not_framed harg h⟩
  have hlen := Bool.eq_true_of_not_eq_false fun h => hno (refused_of_not_lenLegal harg hframe h)
  have hflags := Bool.eq_true_of_not_eq_false fun h => hno (refused_of_not_flagsReady h)
  have hdata := Bool.eq_true_of_not_eq_false fun h => hno (refused_of_not_dataReady harg hframe hlen hflags h)
  exact ⟨hsession, hrsa, harg, hframe, hlen, hflags, hdata⟩

/-! Each part of the invariant reads its own registers. -/

theorem SessionInv.congr {s u : State} (h : SessionInv s) (hvalid : s.kValid = true → u.kValid = true := by simp)
    (hphase : u.shPhase = s.shPhase := by simp) (hvar : u.shVar = s.shVar := by simp)
    (hpos : u.shPos = s.shPos := by simp) : SessionInv u := by
  intro hopen
  obtain ⟨hkValid, hlt⟩ := h (hphase ▸ hopen)
  exact ⟨hvalid hkValid, by rwa [hvar, hpos]⟩

theorem RsaInv.congr {s u : State} (h : RsaInv s) (hpubN : u.pubN = s.pubN := by simp)
    (hpubE : u.pubE = s.pubE := by simp) (hprvN : u.prvN = s.prvN := by simp)
    (hprvD : u.prvD = s.prvD := by simp) : RsaInv u := by
  rwa [RsaInv, hpubN, hpubE, hprvN, hprvD]

theorem AesInv.congr {s u : State} (h : AesInv s) (hkey : u.aesKV = s.aesKV := by simp)
    (hsize : u.aesNK = s.aesNK := by simp) (hwords : u.aesW = s.aesW := by simp) : AesInv u := by
  rwa [AesInv, hkey, hsize, hwords]

theorem Rc4Inv.congr {s u : State} (h : Rc4Inv s) (hkey : u.rc4Keyed = s.rc4Keyed := by simp)
    (harr : u.rc4S = s.rc4S := by simp) : Rc4Inv u := by
  rwa [Rc4Inv, hkey, harr]

theorem LastErrInv.congr {s u : State} (h : LastErrInv s) (hlast : u.lastErr = s.lastErr := by simp) :
    LastErrInv u := by
  rwa [LastErrInv, hlast]

/-! Each part of the invariant under the effects. -/

/-- Below the rate a session stays, `SH.INIT` starts at 0, and `SH.FINAL` and the reset close it (R159). -/
theorem Effect.sessionInv {i : Instr} {s u : State} (h : Effect i s u) (hinv : SessionInv s) : SessionInv u := by
  cases h with
  | sysReset => exact fun hopen => by cases hopen
  | shInit =>
    next c v hv =>
    have hrate := rateBytes_bounds v
    exact fun _ => ⟨rfl, show 0 < v.rateBytes by omega⟩
  | shAbsorb hpos => exact hinv.setSession (absorb_pos _ _ _ hpos)
  | shFinal => exact fun hopen => by cases hopen
  | _ => exact hinv.congr

theorem os2ip_lt (p : Bytes) : os2ip p < 256 ^ p.length := by
  have hmod := os2ip_i2osp p.length (os2ip p)
  rw [i2osp_os2ip] at hmod
  exact hmod.trans_lt (Nat.mod_lt _ (Nat.pow_pos (by decide)))

theorem freeRsa_lt (d k : Nat) : freeRsa d k < 256 ^ Config.rsaMaxBytes := by
  unfold freeRsa
  exact Nat.mod_lt _ (Nat.pow_pos (by decide))

theorem RsaInv.loadRsa {s : State} (h : RsaInv s) (r : RsaReg) {v : Nat} (hv : v < 256 ^ Config.rsaMaxBytes) :
    RsaInv (s.loadRsa r v) := by
  obtain ⟨hpubN, hpubE, hprvN, hprvD⟩ := h
  cases r with
  | pubN => exact ⟨hv, hpubE, hprvN, hprvD⟩
  | pubE => exact ⟨hpubN, hv, hprvN, hprvD⟩
  | prvN => exact ⟨hpubN, hpubE, hv, hprvD⟩
  | prvD => exact ⟨hpubN, hpubE, hprvN, hv⟩

theorem rsaInv_resetCore (s : State) : RsaInv s.resetCore :=
  ⟨freeRsa_lt _ 1, freeRsa_lt _ 2, freeRsa_lt _ 3, freeRsa_lt _ 4⟩

/-- `RSA.LD` is the one command that writes an RSA register, and accepted it has a payload that fits one (R27, R184). -/
theorem Effect.rsaInv {i : Instr} {s u : State} (h : Effect i s u) (hacc : Accepted i s) : RsaInv u := by
  cases h with
  | sysReset => exact rsaInv_resetCore s
  | rsaLd =>
    next c r hr =>
    have hlength : c.payload.length = c.len.toNat := hacc.payload_length rfl
    have hfits : c.len.toNat ≤ Config.rsaMaxBytes := (Config.rsaFits_iff _).1 hacc.len
    exact hacc.rsa.loadRsa r
      ((os2ip_lt c.payload).trans_le (Nat.pow_le_pow_right (by decide) (hlength.trans_le hfits)))
  | _ => exact hacc.rsa.congr

theorem Effect.aesInv {i : Instr} {s u : State} (h : Effect i s u) (hinv : AesInv s) : AesInv u := by
  cases h with
  | sysReset => exact fun hkey => by cases hkey
  | aesSetkey => exact fun _ => followsSchedule_loadAesKey s _ _
  | _ => exact hinv.congr

theorem Effect.rc4Inv {i : Instr} {s u : State} (h : Effect i s u) (hinv : Rc4Inv s) : Rc4Inv u := by
  cases h with
  | sysReset => exact fun hkey => by cases hkey
  | rc4Setkey => exact fun _ => isPermutation_ksa _
  | rc4Ks => exact fun hkey => by rw [keyStream_eq]; exact (hinv hkey).streamAfter _
  | rc4Xor => exact fun hkey => by rw [xorStream_eq]; exact (hinv hkey).streamAfter _
  | _ => exact hinv.congr

theorem Effect.lastErrInv {i : Instr} {s u : State} (h : Effect i s u) (hinv : LastErrInv s) : LastErrInv u := by
  cases h with
  | sysReset => exact .inl rfl
  | _ => exact hinv.congr

/-! The two ends of a command, and the step. -/

theorem OutboxInv.concat {s u : State} {r : Response} (h : OutboxInv s) (hr : ResponseWf r)
    (hout : u.outbox = s.outbox ++ [r]) : OutboxInv u := by
  intro r' hmem
  rw [hout, List.mem_append, List.mem_singleton] at hmem
  obtain hold | rfl := hmem
  · exact h r' hold
  · exact hr

/-- A response with the code of a result and its output's length in `OLEN` is well-formed, an error's without output
(R92, R301). -/
theorem responseWf_mk (op : Byte) (c : ResultCode) {q : Bytes} (hlen : q.length ≤ 65535)
    (herr : c.code ≠ 0 → q = []) : ResponseWf ⟨op ++ c.code ++ BitVec.ofNat 16 q.length, q⟩ := by
  obtain ⟨-, hcode, holen⟩ := Laws.header_fields op c.code (BitVec.ofNat 16 q.length) q
  refine ⟨?_, ⟨c, hcode⟩, fun hne => herr fun hz => hne (hcode.trans hz)⟩
  exact (congrArg BitVec.toNat holen).trans (toNat_ofNat_len hlen)

theorem Inv.afterError {s : State} (h : Inv s) (op : Byte) (e : ErrorCode) : Inv (afterError op e.code s) where
  session := h.session
  rsa := h.rsa
  aes := h.aes
  rc4 := h.rc4
  lastErr := .inr ⟨op, e, rfl⟩
  outbox := h.outbox.concat (responseWf_mk op (.error e) (q := []) (Nat.zero_le _) fun _ => rfl) rfl

/-- Deliveries are no part of the invariant. -/
theorem Inv.setInbox {s : State} (h : Inv s) (es : List HostEvent) : Inv (s.setInbox es) := { h with }

/-- The effect and the response of an accepted command. -/
theorem Inv.afterOk {i : Instr} {s u : State} {q : Bytes} (h : Inv s) (hacc : Accepted i s) (heffect : Effect i s u)
    (hq : q.length ≤ 65535) : Inv (afterOk i.op q u) where
  session := heffect.sessionInv h.session
  rsa := heffect.rsaInv hacc
  aes := heffect.aesInv h.aes
  rc4 := heffect.rc4Inv h.rc4
  lastErr := heffect.lastErrInv h.lastErr
  outbox := h.outbox.concat (responseWf_mk i.op .ok hq fun hne => absurd rfl hne)
    (congrArg (· ++ _) heffect.inbox_outbox.2)

/-- The external reset leaves every flag and `LASTERR` 0, and the responses as they are (R340). -/
theorem Inv.resetCore {s : State} (h : Inv s) : Inv s.resetCore where
  session := fun hopen => by cases hopen
  rsa := rsaInv_resetCore s
  aes := fun hkey => by cases hkey
  rc4 := fun hkey => by cases hkey
  lastErr := .inl rfl
  outbox := h.outbox

/-- An accepted command goes on and keeps the invariant: its end is its effect, and the answer's length fits `OLEN`. -/
theorem Accepted.exec_keeps_inv {i : Instr} {s : State} (hacc : Accepted i s) (h : Inv s) :
    ∃ t, exec i s = .next t ∧ Inv t := by
  obtain ⟨t, q, hexec, hout, hlen, -⟩ := acceptedCommandsComplete i s hacc.session hacc.rsa hacc.arg hacc.frame hacc.len
    hacc.flags hacc.data
  refine ⟨t, hexec, ?_⟩
  obtain ⟨e, rfl⟩ | ⟨q', u, heffect, rfl⟩ := ends_exec i s t hexec
  · exact h.afterError i.op e
  · obtain ⟨-, hlast⟩ := List.append_inj' hout rfl
    have hq : q' = q := congrArg Response.output (List.singleton_inj.1 hlast)
    exact h.afterOk hacc heffect (hq ▸ hlen)

theorem exec_keeps_inv {s : State} (h : Inv s) (i : Instr) : ∃ t, exec i s = .next t ∧ Inv t := by
  by_cases href : Refused i s
  · obtain ⟨e, hexec⟩ := href
    exact ⟨_, hexec, h.afterError i.op e⟩
  · exact (accepted_of_not_refused h.session h.rsa href).exec_keeps_inv h

/-- Settles O52: nothing delivered, the external reset, an illegal opcode, or a command. -/
theorem everyStepKeepsInvariant : Obligations.EveryStepKeepsInvariant := by
  unfold Obligations.EveryStepKeepsInvariant
  intro s h
  obtain ⟨-, hstep⟩ | ⟨rest, -, hstep⟩ | ⟨c, rest, -, -, hstep⟩ | ⟨c, rest, i, -, -, hstep⟩ := step_cases s
  · exact ⟨s, hstep, h⟩
  · exact ⟨_, hstep, (h.setInbox rest).resetCore⟩
  · exact ⟨_, hstep, (h.setInbox rest).afterError c.op .illegalCommand⟩
  · rw [hstep]
    exact exec_keeps_inv (h.setInbox rest) i

end Sys2Proof.Machine
end

section
/-! The commands of unit RSA (43_rsa_modexp.md R184 to R192): each command as its checks in order and its effect, the
power written out. -/

namespace Sys2Proof.Machine

/-! The checks and `CHECKED`. -/

theorem rsaFits_eq (n : Nat) : Config.rsaFits n = decide (n ≤ Config.rsaMaxBytes) :=
  Bool.eq_iff_iff.2 ((Config.rsaFits_iff n).trans decide_eq_true_iff.symm)

theorem not_rsaFits_iff (n : Nat) : (!Config.rsaFits n) = true ↔ Config.rsaMaxBytes < n := by
  simp [rsaFits_eq]

/-- The framing and the limit, as the RSA commands without a digest check them (R184 to R190). -/
theorem badFrame_or_rsaTooLong_iff (c : Fields) : (badFrame .payload c || rsaTooLong c) = true ↔
    c.payload.length ≠ c.len.toNat ∨ Config.rsaMaxBytes < c.len.toNat := by
  rw [Bool.or_eq_true, badFrame_payload, decide_eq_true_iff, rsaTooLong, not_rsaFits_iff]

/-- The end of a command that answers the result of `CHECKED` (R186). -/
theorem answer_checked (op : Byte) (slot : Slot) (p : Bytes) (pad : Bool) (ans : Bytes → Bytes) (s : State) :
    answer op ((checked slot p pad s).map ans) s = .next
      (checkedEnd op (s.slotReady slot) (s.modulus slot) (s.exponent slot) (os2ip p) pad ans s) := by
  unfold checkedEnd
  rcases checked_cases slot p pad s with ⟨hready, hout⟩ | ⟨hready, hlarge, hout⟩ | ⟨hready, hless, hout⟩
  · rw [hout, if_pos hready]
    rfl
  · rw [hout, if_neg (by simp [hready]), if_pos hlarge]
    rfl
  · rw [hout, if_neg (by simp [hready]), if_neg (by omega), rsaOut_eq _ _ _ _ (by omega)]
    rfl

theorem answer_checked_id (op : Byte) (slot : Slot) (p : Bytes) (pad : Bool) (s : State) :
    answer op (checked slot p pad s) s = .next
      (checkedEnd op (s.slotReady slot) (s.modulus slot) (s.exponent slot) (os2ip p) pad id s) := by
  rw [← answer_checked, Except.map_id]
  rfl

/-! The commands. -/

theorem exec_rsaLd {c : Fields} {r : RsaReg} (hr : RsaReg.ofNumber c.arg.toNat = some r) (s : State) :
    exec (.rsaLd c) s = .next
      (if c.payload.length ≠ c.len.toNat ∨ Config.rsaMaxBytes < c.len.toNat then afterError 0x30 0x03 s
       else afterOk 0x30 [] (s.loadRsa r (os2ip c.payload))) := by
  show execRsaLd c s = _
  simp only [execRsaLd, hr, attempt_cons, attempt_nil, badFrame_or_rsaTooLong_iff, respond_eq, ite_next]
  rfl

theorem exec_rsaModexp (c : Fields) (s : State) : exec (.rsaModexp c) s = .next
    (if 3 < c.arg then afterError 0x31 0x02 s
     else if c.payload.length ≠ c.len.toNat ∨ Config.rsaMaxBytes < c.len.toNat then afterError 0x31 0x03 s
     else if s.slotReady (slotOf c) = false then afterError 0x31 0x04 s
     else if s.modulus (slotOf c) = 0 then afterError 0x31 0x14 s
     else afterOk 0x31
       (powerOut (os2ip c.payload) (s.exponent (slotOf c)) (s.modulus (slotOf c)) (padBit c)) s) := by
  show execRsaModexp c s = _
  simp only [execRsaModexp, attempt_cons, attempt_nil, argAbove_eq 3 c (by decide), badFrame_or_rsaTooLong_iff,
    decide_eq_true_iff, Bool.not_eq_true', respond_eq, ite_next]
  by_cases hzero : s.modulus (slotOf c) = 0
  · simp only [if_pos hzero]
    rfl
  · simp only [if_neg hzero, rsaOut_eq _ _ _ _ (Nat.pos_of_ne_zero hzero)]
    rfl

/-- What `RSA.ENCRYPT`, `RSA.DECRYPT`, `RSA.SIGN` and `RSA.VERIFY` share (R187 to R190). -/
theorem rsaChecked_eq (op : Byte) (slot : Slot) (c : Fields) (s : State) : rsaChecked op slot c s = .next
    (if 1 < c.arg then afterError op 0x02 s
     else if c.payload.length ≠ c.len.toNat ∨ Config.rsaMaxBytes < c.len.toNat then afterError op 0x03 s
     else checkedEnd op (s.slotReady slot) (s.modulus slot) (s.exponent slot) (os2ip c.payload) (padBit c) id s) := by
  simp only [rsaChecked, attempt_cons, attempt_nil, argAbove_eq 1 c (by decide), badFrame_or_rsaTooLong_iff,
    decide_eq_true_iff, answer_checked_id, ite_next]
  rfl

/-- A digest length as an operand field gives it (R191, R192). -/
theorem badDigestLength_toNat_iff {w : Nat} (hw : 7 ≤ w) (n : BitVec w) :
    badDigestLength n.toNat = true ↔ n < BitVec.ofNat w 20 ∨ BitVec.ofNat w 64 < n := by
  have hpow : 2 ^ 7 ≤ 2 ^ w := Nat.pow_le_pow_right (by decide) hw
  have hmin : 20 % 2 ^ w = 20 := Nat.mod_eq_of_lt (by omega)
  have hmax : 64 % 2 ^ w = 64 := Nat.mod_eq_of_lt (by omega)
  rw [badDigestLength, Bool.or_eq_true, decide_eq_true_iff, decide_eq_true_iff, BitVec.lt_def, BitVec.lt_def,
    BitVec.toNat_ofNat, BitVec.toNat_ofNat, hmin, hmax]

theorem exec_rsaSignhash (c : Fields) (s : State) : exec (.rsaSignhash c) s = .next
    (if 1 < c.arg then afterError 0x36 0x02 s
     else if c.payload.length ≠ c.len.toNat then afterError 0x36 0x03 s
     else if c.len < 20 ∨ 64 < c.len then afterError 0x36 0x11 s
     else checkedEnd 0x36 (s.slotReady .prv) (s.modulus .prv) (s.exponent .prv) (os2ip c.payload) (padBit c) id s) := by
  show execRsaSignhash c s = _
  simp only [execRsaSignhash, attempt_cons, attempt_nil, argAbove_eq 1 c (by decide), badFrame_payload,
    decide_eq_true_iff, badDigestLength_toNat_iff (show 7 ≤ 16 by decide), answer_checked_id, ite_next]
  rfl

/-- The framing and both limits of `RSA.VERIFYHASH`: the payload holds the digest and a signature that fits (R192). -/
theorem badVerifyhashLength_iff (c : Fields) :
    (badFrame .payload c || decide (c.len.toNat < c.arg.toNat) || !Config.rsaFits (c.len.toNat - c.arg.toNat)) = true ↔
      c.payload.length ≠ c.len.toNat ∨ c.len.toNat < c.arg.toNat ∨ Config.rsaMaxBytes < c.len.toNat - c.arg.toNat := by
  rw [Bool.or_eq_true, Bool.or_eq_true, badFrame_payload, decide_eq_true_iff, decide_eq_true_iff, not_rsaFits_iff,
    or_assoc]

theorem exec_rsaVerifyhash (c : Fields) (s : State) : exec (.rsaVerifyhash c) s = .next
    (if c.arg < 20 ∨ 64 < c.arg then afterError 0x37 0x11 s
     else if c.payload.length ≠ c.len.toNat ∨ c.len.toNat < c.arg.toNat ∨
       Config.rsaMaxBytes < c.len.toNat - c.arg.toNat then afterError 0x37 0x03 s
     else checkedEnd 0x37 (s.slotReady .pub) (s.modulus .pub) (s.exponent .pub) (os2ip (c.payload.drop c.arg.toNat))
       false (verdict (c.payload.take c.arg.toNat)) s) := by
  show execRsaVerifyhash c s = _
  simp only [execRsaVerifyhash, attempt_cons, attempt_nil, badDigestLength_toNat_iff (show 7 ≤ 8 by decide),
    badVerifyhashLength_iff, answer_checked, ite_next]
  rfl

/-! The statements. -/

/-- Settles O32: `ARG` numbers one of the four registers, or it is illegal. -/
theorem rsaLdLoadsRegister : Obligations.RsaLdLoadsRegister := by
  unfold Obligations.RsaLdLoadsRegister
  rintro ⟨arg, len, p⟩ s
  by_cases hillegal : 3 < arg
  · rw [if_pos hillegal]
    exact illegalArgumentsAreRefused (.rsaLd ⟨arg, len, p⟩) s (decide_eq_false (Nat.not_le.2 hillegal))
  · rw [if_neg hillegal]
    obtain rfl | rfl | rfl | rfl : arg = 0 ∨ arg = 1 ∨ arg = 2 ∨ arg = 3 := by bv_omega
    · exact exec_rsaLd (c := ⟨0, len, p⟩) (r := .pubN) rfl s
    · exact exec_rsaLd (c := ⟨1, len, p⟩) (r := .pubE) rfl s
    · exact exec_rsaLd (c := ⟨2, len, p⟩) (r := .prvN) rfl s
    · exact exec_rsaLd (c := ⟨3, len, p⟩) (r := .prvD) rfl s

/-- Settles O33: the slot is the one that `SLOT` names. -/
theorem rsaModexpRaisesToPower : Obligations.RsaModexpRaisesToPower := by
  unfold Obligations.RsaModexpRaisesToPower
  intro c s
  rw [exec_rsaModexp, slotOf]
  cases c.arg.getLsbD 1 with
  | true => rfl
  | false => rfl

/-- Settles O34: the four commands are one check on one of the two slots. -/
theorem rsaWrappersCheckAndRaise : Obligations.RsaWrappersCheckAndRaise := by
  unfold Obligations.RsaWrappersCheckAndRaise
  exact fun c s => ⟨rsaChecked_eq Opcode.rsaEncrypt .pub c s, rsaChecked_eq Opcode.rsaDecrypt .prv c s,
    rsaChecked_eq Opcode.rsaSign .prv c s, rsaChecked_eq Opcode.rsaVerify .pub c s⟩

/-- Settles O35: the digest's length stands before `CHECKED`, so the key is not looked at before it. -/
theorem rsaSignhashSignsDigest : Obligations.RsaSignhashSignsDigest := by
  unfold Obligations.RsaSignhashSignsDigest
  exact exec_rsaSignhash

/-- Settles O36: the verdict is an answer of `CHECKED`, made from the recovered bytes. -/
theorem rsaVerifyhashGivesVerdict : Obligations.RsaVerifyhashGivesVerdict := by
  unfold Obligations.RsaVerifyhashGivesVerdict
  exact exec_rsaVerifyhash

end Sys2Proof.Machine
end

section
/-! Textbook RSA round trip (43_rsa_modexp.md R193): under a product of two distinct primes an exponent that is 1 modulo
`(p-1)(q-1)` leaves every message, so each slot undoes the other. -/

namespace Sys2Proof.Machine

/-! Fermat's theorem, for one prime and for two. -/

/-- Fermat's little theorem in the form that holds of the multiples of the prime too. -/
theorem pow_modEq_self_of_prime {p k : Nat} (hp : p.Prime) (hpos : 1 ≤ k) (hk : k ≡ 1 [MOD p - 1]) (m : Nat) :
    m ^ k ≡ m [MOD p] := by
  obtain ⟨j, hj⟩ : p - 1 ∣ k - 1 := (Nat.modEq_iff_dvd' hpos).1 hk.symm
  obtain rfl : k = (p - 1) * j + 1 := by omega
  by_cases hdvd : p ∣ m
  · have hzero : m ≡ 0 [MOD p] := Nat.modEq_zero_iff_dvd.2 hdvd
    exact (Nat.modEq_zero_iff_dvd.2 (dvd_pow hdvd (by omega))).trans hzero.symm
  · have hone : m ^ (p - 1) ≡ 1 [MOD p] :=
      Nat.ModEq.pow_card_sub_one_eq_one hp ((hp.coprime_iff_not_dvd.2 hdvd).symm)
    calc m ^ ((p - 1) * j + 1) = (m ^ (p - 1)) ^ j * m := by rw [pow_succ, pow_mul]
      _ ≡ 1 ^ j * m [MOD p] := (hone.pow j).mul_right m
      _ = m := by rw [one_pow, one_mul]

theorem one_lt_totient_of_two_primes {p q : Nat} (hp : p.Prime) (hq : q.Prime) (hne : p ≠ q) :
    1 < (p - 1) * (q - 1) := by
  have hp2 := hp.two_le
  have hq2 := hq.two_le
  obtain hlt | hlt := Nat.lt_or_gt_of_ne hne
  · exact Nat.one_lt_mul_iff.2 ⟨by omega, by omega, .inr (by omega)⟩
  · exact Nat.one_lt_mul_iff.2 ⟨by omega, by omega, .inl (by omega)⟩

/-- By the Chinese remainder theorem the two primes together. -/
theorem pow_modEq_self_of_two_primes {p q k : Nat} (hp : p.Prime) (hq : q.Prime) (hne : p ≠ q)
    (hk : k ≡ 1 [MOD (p - 1) * (q - 1)]) (m : Nat) : m ^ k ≡ m [MOD p * q] := by
  have htot := one_lt_totient_of_two_primes hp hq hne
  have hpos : 1 ≤ k := by
    by_contra hzero
    obtain rfl : k = 0 := by omega
    rw [Nat.ModEq, Nat.zero_mod, Nat.mod_eq_of_lt htot] at hk
    omega
  exact (Nat.modEq_and_modEq_iff_modEq_mul ((Nat.coprime_primes hp hq).2 hne)).1
    ⟨pow_modEq_self_of_prime hp hpos (hk.of_mul_right _) m, pow_modEq_self_of_prime hq hpos (hk.of_mul_left _) m⟩

/-! Two slots that undo each other. -/

/-- What slot `a` makes of a number below the common modulus, slot `b` brings back. -/
structure SlotUndoes (s : State) (a b : Slot) : Prop where
  readyLeft : s.slotReady a = true
  readyRight : s.slotReady b = true
  modulus : s.modulus b = s.modulus a
  one_lt : 1 < s.modulus a
  back : ∀ v < s.modulus a, (v ^ s.exponent a % s.modulus a) ^ s.exponent b % s.modulus a = v

theorem slotUndoes_of_textbook_key {s : State} {a b : Slot} {p q : Nat} (hp : p.Prime) (hq : q.Prime) (hne : p ≠ q)
    (hreadyA : s.slotReady a = true) (hreadyB : s.slotReady b = true) (hmodA : s.modulus a = p * q)
    (hmodB : s.modulus b = p * q) (hexp : s.exponent a * s.exponent b ≡ 1 [MOD (p - 1) * (q - 1)]) :
    SlotUndoes s a b where
  readyLeft := hreadyA
  readyRight := hreadyB
  modulus := hmodB.trans hmodA.symm
  one_lt := hmodA ▸ Nat.one_lt_mul_iff.2 ⟨hp.pos, hq.pos, .inl hp.one_lt⟩
  back := fun v hv => by
    rw [hmodA] at hv ⊢
    rw [← Nat.pow_mod, ← pow_mul, pow_modEq_self_of_two_primes hp hq hne hexp v, Nat.mod_eq_of_lt hv]

/-! The outputs read back. -/

theorem powerOut_eq_rsaOut (b e : Nat) {n : Nat} (hn : 1 < n) (pad : Bool) :
    powerOut b e n pad = rsaOut (b ^ e % n) pad n := by
  rw [powerOut, if_neg hn.ne']
  rfl

/-- Both forms of `RSAOUT` are long enough for a value below the modulus (R183). -/
theorem os2ip_rsaOut {v n : Nat} (hv : v < n) (pad : Bool) : os2ip (rsaOut v pad n) = v := by
  have hfits : ∀ w, w < 256 ^ bytelen w := fun w => (bytelen_le_iff (bytelen_pos w)).1 le_rfl
  rw [rsaOut, os2ip_i2osp]
  apply Nat.mod_eq_of_lt
  cases pad with
  | true => exact hv.trans (hfits n)
  | false => exact hfits v

theorem os2ip_powerOut (b e : Nat) {n : Nat} (hn : 1 < n) (pad : Bool) : os2ip (powerOut b e n pad) = b ^ e % n := by
  rw [powerOut_eq_rsaOut _ _ hn, os2ip_rsaOut (Nat.mod_lt _ (by omega))]

theorem length_powerOut_le (b e : Nat) {n : Nat} (hn : 1 ≤ n) (hfits : n < 256 ^ Config.rsaMaxBytes) (pad : Bool) :
    (powerOut b e n pad).length ≤ Config.rsaMaxBytes := by
  rw [← rsaOut_eq _ _ _ _ hn]
  exact (length_rsaOut_modexp b e pad hn hfits).2

/-! The commands. -/

@[simp] theorem afterOk_slotReady (op : Byte) (q : Bytes) (s : State) (a : Slot) :
    (afterOk op q s).slotReady a = s.slotReady a := by cases a <;> rfl
@[simp] theorem afterOk_modulus (op : Byte) (q : Bytes) (s : State) (a : Slot) :
    (afterOk op q s).modulus a = s.modulus a := by cases a <;> rfl
@[simp] theorem afterOk_exponent (op : Byte) (q : Bytes) (s : State) (a : Slot) :
    (afterOk op q s).exponent a = s.exponent a := by cases a <;> rfl

theorem lastOutput_afterOk (op : Byte) (q : Bytes) (s : State) :
    (afterOk op q s).outbox.getLast?.map Response.output = some q := by
  simp [afterOk]

/-- A wrapper on a loaded slot, a payload that fits and an input below the modulus answers the power (R186). -/
theorem rsaChecked_withPayload (op : Byte) {s : State} {a : Slot} {arg : Byte} {m : Bytes} (harg : arg ≤ 1)
    (hlen : m.length ≤ Config.rsaMaxBytes) (hready : s.slotReady a = true) (hdata : os2ip m < s.modulus a) :
    rsaChecked op a (withPayload arg m) s = .next
      (afterOk op (powerOut (os2ip m) (s.exponent a) (s.modulus a) (arg.getLsbD 0)) s) := by
  have hframe : (withPayload arg m).len.toNat = m.length := toNat_ofNat_len (hlen.trans Config.rsaMaxBytes_le)
  have hlegal : ¬ 1 < (withPayload arg m).arg := BitVec.not_lt.2 harg
  have hgood : ¬ ((withPayload arg m).payload.length ≠ m.length ∨ Config.rsaMaxBytes < m.length) :=
    not_or.2 ⟨not_not.2 rfl, hlen.not_gt⟩
  have hfit : ¬ s.modulus a ≤ os2ip (withPayload arg m).payload := Nat.not_le.2 hdata
  rw [rsaChecked_eq, hframe, if_neg hlegal, if_neg hgood, checkedEnd, if_neg (by simp [hready]), if_neg hfit]
  rfl

/-- One wrapper and then the one that undoes it: the second answers the first one's input. -/
theorem SlotUndoes.round_trip {s : State} {a b : Slot} (h : SlotUndoes s a b) (hinv : RsaInv s) {arg : Byte} {m : Bytes}
    (harg : arg ≤ 1) (hlen : m.length ≤ Config.rsaMaxBytes) (hdata : os2ip m < s.modulus a) (op op' : Byte) :
    ∃ c t u, rsaChecked op a (withPayload arg m) s = .next t ∧ t.outbox.getLast?.map Response.output = some c ∧
      rsaChecked op' b (withPayload arg c) t = .next u ∧
      u.outbox.getLast?.map Response.output = some (rsaOut (os2ip m) (arg.getLsbD 0) (s.modulus a)) := by
  have hpos : 0 < s.modulus a := Nat.zero_lt_of_lt hdata
  have hless : os2ip (powerOut (os2ip m) (s.exponent a) (s.modulus a) (arg.getLsbD 0)) < s.modulus b := by
    rw [os2ip_powerOut _ _ h.one_lt, h.modulus]
    exact Nat.mod_lt _ hpos
  refine ⟨_, _, _, rsaChecked_withPayload op harg hlen h.readyLeft hdata, lastOutput_afterOk _ _ _,
    rsaChecked_withPayload op' harg (length_powerOut_le _ _ hpos (hinv.modulus_lt a) _) (by simpa using h.readyRight)
      (by simpa using hless), ?_⟩
  rw [lastOutput_afterOk, afterOk_exponent, afterOk_modulus, h.modulus, powerOut_eq_rsaOut _ _ h.one_lt,
    os2ip_powerOut _ _ h.one_lt, h.back _ hdata]

/-- Settles O37: under a textbook key each slot undoes the other. -/
theorem rsaRoundTrip : Obligations.RsaRoundTrip := by
  unfold Obligations.RsaRoundTrip
  intro s p q arg m hinv hp hq hne hpubN hprvN hexp hpubNV hpubEV hprvNV hprvDV harg hlen hdata back
  have hback : back = rsaOut (os2ip m) (arg.getLsbD 0) (p * q) := by
    obtain rfl | rfl : arg = 0 ∨ arg = 1 := by bv_omega
    · rfl
    · rfl
  have hpub := slotReady_pub ⟨hpubNV, hpubEV⟩
  have hprv := slotReady_prv ⟨hprvNV, hprvDV⟩
  have hencrypt : SlotUndoes s .pub .prv := slotUndoes_of_textbook_key hp hq hne hpub hprv hpubN hprvN hexp
  have hsign : SlotUndoes s .prv .pub :=
    slotUndoes_of_textbook_key hp hq hne hprv hpub hprvN hpubN (mul_comm s.pubE s.prvD ▸ hexp)
  have hencryptBack :=
    hencrypt.round_trip hinv harg hlen (hdata.trans_eq hpubN.symm) Opcode.rsaEncrypt Opcode.rsaDecrypt
  have hsignBack := hsign.round_trip hinv harg hlen (hdata.trans_eq hprvN.symm) Opcode.rsaSign Opcode.rsaVerify
  rw [show s.modulus .pub = p * q from hpubN, ← hback] at hencryptBack
  rw [show s.modulus .prv = p * q from hprvN, ← hback] at hsignBack
  exact ⟨hencryptBack, hsignBack⟩

end Sys2Proof.Machine
end

section
/-! The field of AES (44_aes.md R221): multiplication is bilinear over XOR, so that commutativity and associativity hold
of all bytes once they hold of the eight powers of two. The tables against their definitions (R222 to R224). -/

namespace Sys2Proof.Machine

-- Side by side these proofs take more threads than the memory limit allows, as the tests do.
set_option Elab.async false

/-! `xtime` and multiplication over XOR. -/

theorem xtime_eq_xor_ite (a : Byte) : xtime a = (a <<< 1) ^^^ (if a.msb then 0x1b#8 else 0#8) := by
  rw [xtime, BitVec.msb_eq_decide]
  by_cases h : a.toNat < 128
  · rw [if_pos h, if_neg (by simpa using h), BitVec.xor_zero]
  · rw [if_neg h, if_pos (by simpa using h)]
    rfl

theorem xtime_xor (a b : Byte) : xtime (a ^^^ b) = xtime a ^^^ xtime b := by
  have hreduce : (if (a ^^^ b).msb then 0x1b#8 else 0#8) =
      (if a.msb then 0x1b#8 else 0#8) ^^^ (if b.msb then 0x1b#8 else 0#8) := by
    rw [BitVec.msb_xor]
    cases a.msb <;> cases b.msb <;> rfl
  rw [xtime_eq_xor_ite, xtime_eq_xor_ite, xtime_eq_xor_ite, BitVec.shiftLeft_xor_distrib, hreduce]
  ac_rfl

theorem xtimes_xor (i : Nat) (a b : Byte) : xtimes i (a ^^^ b) = xtimes i a ^^^ xtimes i b := by
  induction i with
  | zero => rfl
  | succ i ih => rw [xtimes, ih, xtime_xor, xtimes, xtimes]

/-- What bit `i` of `c` contributes to `gmul a c` (R221). -/
def gmulTerm (a c : Byte) (i : Nat) : Byte := if c.getLsbD i then xtimes i a else 0#8

theorem gmulTerm_xor_left (a b c : Byte) (i : Nat) : gmulTerm (a ^^^ b) c i = gmulTerm a c i ^^^ gmulTerm b c i := by
  unfold gmulTerm
  cases c.getLsbD i with
  | false => exact BitVec.xor_zero.symm
  | true => exact xtimes_xor i a b

theorem gmulTerm_xor_right (a b c : Byte) (i : Nat) : gmulTerm a (b ^^^ c) i = gmulTerm a b i ^^^ gmulTerm a c i := by
  unfold gmulTerm
  rw [BitVec.getLsbD_xor]
  cases b.getLsbD i <;> cases c.getLsbD i <;> simp

/-- The sum of R221 written out. -/
theorem gmul_eq_xor_gmulTerm (a c : Byte) : gmul a c =
    gmulTerm a c 0 ^^^ gmulTerm a c 1 ^^^ gmulTerm a c 2 ^^^ gmulTerm a c 3 ^^^ gmulTerm a c 4 ^^^ gmulTerm a c 5 ^^^
      gmulTerm a c 6 ^^^ gmulTerm a c 7 := by
  have hstep (acc : Byte) (i : Nat) : (if c.getLsbD i then acc ^^^ xtimes i a else acc) = acc ^^^ gmulTerm a c i := by
    unfold gmulTerm
    cases c.getLsbD i <;> simp
  rw [← BitVec.zero_xor (x := gmulTerm a c 0)]
  simp only [gmul, hstep]
  rfl

theorem gmul_xor_left (a b c : Byte) : gmul (a ^^^ b) c = gmul a c ^^^ gmul b c := by
  simp only [gmul_eq_xor_gmulTerm, gmulTerm_xor_left]
  ac_rfl

theorem gmul_xor_right (a b c : Byte) : gmul a (b ^^^ c) = gmul a b ^^^ gmul a c := by
  simp only [gmul_eq_xor_gmulTerm, gmulTerm_xor_right]
  ac_rfl

@[simp] theorem gmul_zero (a : Byte) : gmul a 0#8 = 0#8 := rfl
@[simp] theorem gmul_one (a : Byte) : gmul a 1#8 = a := BitVec.zero_xor
theorem gmul_two (a : Byte) : gmul a 2#8 = xtime a := BitVec.zero_xor
theorem gmul_three (a : Byte) : gmul a 3#8 = xtime a ^^^ a := by
  rw [show 3#8 = 2#8 ^^^ 1#8 from rfl, gmul_xor_right, gmul_two, gmul_one]

/-! The laws of the field, from the powers of two. -/

theorem eq_foldl_xor_bits (a : Byte) :
    a = (List.range 8).foldl (fun acc i => if a.getLsbD i then acc ^^^ 1#8 <<< i else acc) 0#8 := by
  revert a
  decide +kernel

/-- What holds of 0 and of the powers of two and is kept by XOR holds of every byte. -/
theorem byte_xor_induction {P : Byte → Prop} (zero : P 0#8) (bit : ∀ i < 8, P (1#8 <<< i))
    (xor : ∀ a b, P a → P b → P (a ^^^ b)) (a : Byte) : P a := by
  rw [eq_foldl_xor_bits a]
  refine List.foldlRecOn _ _ zero fun acc hacc i hi => ?_
  cases a.getLsbD i with
  | false => exact hacc
  | true => exact xor _ _ hacc (bit i (List.mem_range.1 hi))

theorem gmul_comm (a b : Byte) : gmul a b = gmul b a := by
  induction a using byte_xor_induction with
  | zero => revert b; decide +kernel
  | xor x y hx hy => rw [gmul_xor_left, gmul_xor_right, hx, hy]
  | bit i hi =>
    induction b using byte_xor_induction with
    | zero => revert i; decide +kernel
    | xor x y hx hy => rw [gmul_xor_left, gmul_xor_right, hx, hy]
    | bit j hj => revert i j; decide +kernel

@[simp] theorem zero_gmul (c : Byte) : gmul 0#8 c = 0#8 := by rw [gmul_comm, gmul_zero]

theorem gmul_assoc (a b c : Byte) : gmul (gmul a b) c = gmul a (gmul b c) := by
  induction a using byte_xor_induction with
  | zero => simp only [zero_gmul]
  | xor x y hx hy => simp only [gmul_xor_left, hx, hy]
  | bit i hi =>
    induction b using byte_xor_induction with
    | zero => simp only [zero_gmul, gmul_zero]
    | xor x y hx hy => simp only [gmul_xor_left, gmul_xor_right, hx, hy]
    | bit j hj =>
      induction c using byte_xor_induction with
      | zero => simp only [gmul_zero]
      | xor x y hx hy => simp only [gmul_xor_right, hx, hy]
      | bit k hk => revert i j k; decide +kernel

theorem setWidth_xtime (a : Byte) : (xtime a).setWidth 9 =
    if a < 0x80 then a.setWidth 9 <<< 1 else (a.setWidth 9 <<< 1) ^^^ 0x11b := by
  revert a
  decide +kernel

/-! The tables. -/

/-- The affine map of R222. -/
def sboxAffine (b : Byte) : Byte :=
  b ^^^ b.rotateLeft 1 ^^^ b.rotateLeft 2 ^^^ b.rotateLeft 3 ^^^ b.rotateLeft 4 ^^^ 0x63

/-- The affine map backwards: from an entry of the S-box to the inverse that stands behind it. -/
def sboxAffineInv (x : Byte) : Byte := x.rotateLeft 1 ^^^ x.rotateLeft 3 ^^^ x.rotateLeft 6 ^^^ 0x05

theorem sboxAffine_sboxAffineInv (x : Byte) : sboxAffine (sboxAffineInv x) = x := by
  revert x
  decide +kernel

/-- Behind the S-box entry of `a` stands the inverse of `a` in the field (R222). -/
theorem gmul_sboxAffineInv_sbox (a : Byte) (ha : a ≠ 0) : gmul a (sboxAffineInv (sbox a)) = 1 := by
  revert a
  decide +kernel

theorem invSbox_sbox (a : Byte) : invSbox (sbox a) = a := by
  revert a
  decide +kernel

theorem sbox_invSbox (a : Byte) : sbox (invSbox a) = a := by
  revert a
  decide +kernel

/-- Settles O38: the laws from bilinearity, the tables value by value. -/
theorem fieldAndTables : Obligations.FieldAndTables := by
  unfold Obligations.FieldAndTables
  refine ⟨fun a => ⟨gmul_zero a, gmul_one a, gmul_two a, gmul_three a, setWidth_xtime a⟩,
    fun a b c => ⟨gmul_comm a b, gmul_xor_right a b c⟩, by decide, by decide, fun a ha => ?inverse,
    fun a => ⟨invSbox_sbox a, sbox_invSbox a⟩, by decide, by decide, by decide⟩
  exact ⟨sboxAffineInv (sbox a), gmul_sboxAffineInv_sbox a ha, (sboxAffine_sboxAffineInv (sbox a)).symm⟩

end Sys2Proof.Machine
end

section
/-! The round steps of AES cell by cell, and that each has an inverse (44_aes.md R227 to R230), so that the inverse cipher
undoes the cipher step by step from its end (R231, R232). -/

namespace Sys2Proof.Machine

/-! Cells: the indices count modulo 4 (20_memory.md R64). -/

theorem cell_eq_toList_getD (b : Block) {r c : Nat} (hr : r < 4) (hc : c < 4) :
    cell b r c = b.toList.getD (r + 4 * c) 0 := by
  have hk : r + 4 * c < b.toList.length := by rw [Vector.length_toList]; omega
  simp only [cell, Nat.mod_eq_of_lt hr, Nat.mod_eq_of_lt hc]
  rw [List.getD_eq_getElem _ _ hk, Vector.getElem_toList]

theorem cell_mod_right (b : Block) (r c : Nat) : cell b r (c % 4) = cell b r c := by
  simp only [cell, Nat.mod_mod]

section Cells

variable (b : Block) {r c : Nat} (hr : r < 4) (hc : c < 4)
include hr hc

theorem cell_addRoundKey (W : Schedule) (rnd : Nat) : cell (addRoundKey W rnd b) r c =
    cell b r c ^^^ (W[4 * rnd + c]?.getD .zero).byte r := cell_blockOf _ r c hr hc

theorem cell_subBytes : cell (subBytes b) r c = sbox (cell b r c) := cell_blockOf _ r c hr hc

theorem cell_invSubBytes : cell (invSubBytes b) r c = invSbox (cell b r c) := cell_blockOf _ r c hr hc

theorem cell_shiftRows : cell (shiftRows b) r c = cell b r ((c + r) % 4) :=
  (cell_blockOf _ r c hr hc).trans (cell_mod_right b r _).symm

theorem cell_invShiftRows : cell (invShiftRows b) r c = cell b r ((c + 4 - r) % 4) :=
  (cell_blockOf _ r c hr hc).trans (cell_mod_right b r _).symm

theorem cell_mixColumns : cell (mixColumns b) r c =
    mixColumn (cell b 0 c) (cell b 1 c) (cell b 2 c) (cell b 3 c) r := cell_blockOf _ r c hr hc

theorem cell_invMixColumns : cell (invMixColumns b) r c =
    invMixColumn (cell b 0 c) (cell b 1 c) (cell b 2 c) (cell b 3 c) r := cell_blockOf _ r c hr hc

end Cells

/-! `AddRoundKey`, `SubBytes` and `ShiftRows` undone. -/

theorem addRoundKey_addRoundKey (W : Schedule) (rnd : Nat) (b : Block) :
    addRoundKey W rnd (addRoundKey W rnd b) = b := by
  apply block_ext
  intro r c hr hc
  rw [cell_addRoundKey _ hr hc, cell_addRoundKey _ hr hc, BitVec.xor_assoc, BitVec.xor_self, BitVec.xor_zero]

theorem invSubBytes_subBytes (b : Block) : invSubBytes (subBytes b) = b := by
  apply block_ext
  intro r c hr hc
  rw [cell_invSubBytes _ hr hc, cell_subBytes _ hr hc, invSbox_sbox]

theorem subBytes_invSubBytes (b : Block) : subBytes (invSubBytes b) = b := by
  apply block_ext
  intro r c hr hc
  rw [cell_subBytes _ hr hc, cell_invSubBytes _ hr hc, sbox_invSbox]

theorem invShiftRows_shiftRows (b : Block) : invShiftRows (shiftRows b) = b := by
  apply block_ext
  intro r c hr hc
  have hback : ((c + 4 - r) % 4 + r) % 4 = c := by omega
  rw [cell_invShiftRows _ hr hc, cell_shiftRows _ hr (Nat.mod_lt _ (by decide)), hback]

theorem shiftRows_invShiftRows (b : Block) : shiftRows (invShiftRows b) = b := by
  apply block_ext
  intro r c hr hc
  have hback : ((c + r) % 4 + 4 - r) % 4 = c := by omega
  rw [cell_shiftRows _ hr hc, cell_invShiftRows _ hr (Nat.mod_lt _ (by decide)), hback]

/-! `MixColumns` is a matrix over the field, and `InvMixColumns` is its inverse. -/

/-- A column of four bytes, or a row of a matrix. -/
abbrev Column := Fin 4 → Byte

/-- The product over the field of a column and a row. -/
def dot (a m : Column) : Byte := gmul (a 0) (m 0) ^^^ gmul (a 1) (m 1) ^^^ gmul (a 2) (m 2) ^^^ gmul (a 3) (m 3)

/-- The matrix of R230. -/
def mixMatrix : Fin 4 → Column := ![![2, 3, 1, 1], ![1, 2, 3, 1], ![1, 1, 2, 3], ![3, 1, 1, 2]]

/-- The inverse matrix of R230. -/
def invMixMatrix : Fin 4 → Column := ![![14, 11, 13, 9], ![9, 14, 11, 13], ![13, 9, 14, 11], ![11, 13, 9, 14]]

theorem mixColumn_eq_dot (a : Column) (r : Fin 4) : mixColumn (a 0) (a 1) (a 2) (a 3) r = dot a (mixMatrix r) := by
  fin_cases r <;> simp [mixColumn, dot, mixMatrix]

theorem invMixColumn_eq_dot (a : Column) (r : Fin 4) :
    invMixColumn (a 0) (a 1) (a 2) (a 3) r = dot a (invMixMatrix r) := by
  fin_cases r <;> rfl

/-- A row applied to what a matrix makes of a column: first the row and the matrix, then the column. -/
theorem dot_dot (a n : Column) (M : Fin 4 → Column) :
    dot (fun r => dot a (M r)) n = dot a fun j => dot (fun r => M r j) n := by
  simp only [dot, gmul_xor_left, gmul_xor_right, gmul_assoc]
  ac_rfl

theorem dot_single (a : Column) (r : Fin 4) : dot a (Pi.single r 1#8) = a r := by
  fin_cases r <;> simp [dot]

theorem invMixMatrix_mul_mixMatrix (r : Fin 4) :
    (fun j => dot (fun i => mixMatrix i j) (invMixMatrix r)) = Pi.single r 1#8 := by
  revert r
  decide +kernel

theorem mixMatrix_mul_invMixMatrix (r : Fin 4) :
    (fun j => dot (fun i => invMixMatrix i j) (mixMatrix r)) = Pi.single r 1#8 := by
  revert r
  decide +kernel

/-- Column `c` of a block. -/
def column (b : Block) (c : Nat) : Column := fun r => cell b r c

theorem column_mixColumns (b : Block) {c : Nat} (hc : c < 4) :
    column (mixColumns b) c = fun r => dot (column b c) (mixMatrix r) :=
  funext fun r => (cell_mixColumns b r.isLt hc).trans (mixColumn_eq_dot (column b c) r)

theorem column_invMixColumns (b : Block) {c : Nat} (hc : c < 4) :
    column (invMixColumns b) c = fun r => dot (column b c) (invMixMatrix r) :=
  funext fun r => (cell_invMixColumns b r.isLt hc).trans (invMixColumn_eq_dot (column b c) r)

theorem block_ext_column {a b : Block} (h : ∀ c < 4, column a c = column b c) : a = b :=
  block_ext a b fun r c hr hc => congrFun (h c hc) ⟨r, hr⟩

theorem invMixColumns_mixColumns (b : Block) : invMixColumns (mixColumns b) = b :=
  block_ext_column fun c hc => by
    simp only [column_invMixColumns _ hc, column_mixColumns _ hc, dot_dot, invMixMatrix_mul_mixMatrix, dot_single]

theorem mixColumns_invMixColumns (b : Block) : mixColumns (invMixColumns b) = b :=
  block_ext_column fun c hc => by
    simp only [column_invMixColumns _ hc, column_mixColumns _ hc, dot_dot, mixMatrix_mul_invMixMatrix, dot_single]

/-- Settles O39: each formula is the cell of its step. -/
theorem aesRoundSteps : Obligations.AesRoundSteps := by
  unfold Obligations.AesRoundSteps
  intro W b rnd r c hr hc hrnd s
  have hword : W[4 * rnd + c]?.getD .zero = W.toList.getD (4 * rnd + c) .zero := by
    rw [List.getD_eq_getElem?_getD, Vector.getElem?_toList]
  have hmix (i : Nat) (hi : i < 4) := cell_mixColumns b hi hc
  have hinvMix (i : Nat) (hi : i < 4) := cell_invMixColumns b hi hc
  exact ⟨cell_eq_toList_getD b hr hc, hword ▸ cell_addRoundKey b hr hc W rnd, cell_subBytes b hr hc,
    cell_invSubBytes b hr hc, cell_shiftRows b hr hc, cell_invShiftRows b hr hc,
    hmix 0 (by decide), hmix 1 (by decide), hmix 2 (by decide), hmix 3 (by decide),
    hinvMix 0 (by decide), hinvMix 1 (by decide), hinvMix 2 (by decide), hinvMix 3 (by decide),
    invMixColumns_mixColumns b, invShiftRows_shiftRows b, addRoundKey_addRoundKey W rnd b⟩

/-! The cipher and the inverse cipher (R231, R232). -/

/-- Rounds undone from the last to the first. A round of the one cipher and a round of the other are cut at different
steps, so that each round of `dec` finds the step `g` behind the state that its round of `enc` left. -/
theorem foldl_reverse_undoes {enc dec : Block → Nat → Block} {g : Block → Block}
    (h : ∀ s rnd, dec (g (enc s rnd)) rnd = g s) (rounds : List Nat) :
    ∀ s, rounds.reverse.foldl dec (g (rounds.foldl enc s)) = g s := by
  induction rounds with
  | nil => exact fun _ => rfl
  | cons rnd rounds ih =>
    intro s
    simp only [List.reverse_cons, List.foldl_append, List.foldl_cons, List.foldl_nil, ih, h]

theorem decRound_undoes_encRound (W : Schedule) (s : Block) (rnd : Nat) :
    decRound W (shiftRows (subBytes (encRound W s rnd))) rnd = shiftRows (subBytes s) := by
  rw [decRound, invShiftRows_shiftRows, invSubBytes_subBytes, encRound, addRoundKey_addRoundKey,
    invMixColumns_mixColumns]

theorem encRound_undoes_decRound (W : Schedule) (s : Block) (rnd : Nat) :
    encRound W (invSubBytes (invShiftRows (decRound W s rnd))) rnd = invSubBytes (invShiftRows s) := by
  rw [encRound, subBytes_invSubBytes, shiftRows_invShiftRows, decRound, mixColumns_invMixColumns,
    addRoundKey_addRoundKey]

theorem decBlock_encBlock (k : KeySize) (W : Schedule) (b : Block) : decBlock k W (encBlock k W b) = b := by
  have hrounds := foldl_reverse_undoes (g := fun s => shiftRows (subBytes s)) (decRound_undoes_encRound W)
    (middleRounds k) (addRoundKey W 0 b)
  rw [decBlock, encBlock, addRoundKey_addRoundKey, hrounds, invShiftRows_shiftRows, invSubBytes_subBytes,
    addRoundKey_addRoundKey]

theorem encBlock_decBlock (k : KeySize) (W : Schedule) (b : Block) : encBlock k W (decBlock k W b) = b := by
  have hrounds := foldl_reverse_undoes (g := fun s => invSubBytes (invShiftRows s)) (encRound_undoes_decRound W)
    (middleRounds k).reverse (addRoundKey W k.nr b)
  rw [List.reverse_reverse] at hrounds
  rw [encBlock, decBlock, addRoundKey_addRoundKey, hrounds, subBytes_invSubBytes, shiftRows_invShiftRows,
    addRoundKey_addRoundKey]

/-- Settles O44: each step of the one cipher undoes a step of the other. -/
theorem aesDecryptionInvertsEncryption : Obligations.AesDecryptionInvertsEncryption := by
  unfold Obligations.AesDecryptionInvertsEncryption
  exact fun k W b => ⟨decBlock_encBlock k W b, encBlock_decBlock k W b⟩

end Sys2Proof.Machine
end

section
/-! PKCS#7 and ECB (44_aes.md R238, R239): what padding adds unpadding removes, and block by block a cipher's inverse
undoes it. -/

namespace Sys2Proof.Machine

/-! Padding (R238). -/

/-- The last bytes are a padding of value `p` just where none of them has another value. -/
theorem eq_replicate_ofNat_iff {p : Nat} (hp : p < 256) {y : Bytes} (hlen : y.length = p) :
    y = List.replicate p (BitVec.ofNat 8 p) ↔ ¬ ∃ b ∈ y, b.toNat ≠ p := by
  have hvalue (b : Byte) : b = BitVec.ofNat 8 p ↔ b.toNat = p := by
    rw [BitVec.toNat_eq, BitVec.toNat_ofNat, Nat.mod_eq_of_lt hp]
  simp only [List.eq_replicate_iff, hlen, hvalue, true_and, not_exists, not_and, not_not]

theorem pkcs7Unpad_eq_some_iff (x m : Bytes) : pkcs7Unpad x = some m ↔
    ∃ p, 1 ≤ p ∧ p ≤ 16 ∧ x = m ++ List.replicate p (BitVec.ofNat 8 p) := by
  constructor
  · intro h
    simp only [pkcs7Unpad] at h
    split at h
    · cases h
    next hpad =>
      obtain ⟨hmin, hmax, hbytes⟩ : ¬ _ ∧ ¬ _ ∧ ¬ _ ≠ _ := by simpa only [not_or] using hpad
      cases h
      refine ⟨_, Nat.not_lt.1 hmin, Nat.not_lt.1 hmax, ?_⟩
      rw [← not_not.1 hbytes, List.take_append_drop]
  · rintro ⟨p, hmin, hmax, rfl⟩
    have hlast : ((m ++ List.replicate p (BitVec.ofNat 8 p)).getLastD 0).toNat = p := by
      obtain ⟨q, rfl⟩ := Nat.exists_eq_add_of_le' hmin
      rw [List.replicate_succ', ← List.append_assoc, List.getLastD_concat, BitVec.toNat_ofNat]
      omega
    have hstart : (m ++ List.replicate p (BitVec.ofNat 8 p)).length - p = m.length := by simp
    simp only [pkcs7Unpad, hlast, hstart, List.drop_left, List.take_left]
    exact if_neg (not_or.2 ⟨by omega, not_or.2 ⟨by omega, not_not.2 rfl⟩⟩)

theorem pkcs7Unpad_pkcs7Pad (m : Bytes) : pkcs7Unpad (pkcs7Pad m) = some m :=
  (pkcs7Unpad_eq_some_iff _ m).2 ⟨16 - m.length % 16, by omega, by omega, rfl⟩

/-- Settles O45: the padding is 1 to 16 bytes of its own length. -/
theorem pkcs7RoundTrip : Obligations.Pkcs7RoundTrip := by
  unfold Obligations.Pkcs7RoundTrip
  refine ⟨fun m => ⟨pkcs7Unpad_pkcs7Pad m, ?multiple, ?nonempty⟩, pkcs7Unpad_eq_some_iff⟩
  case multiple => rw [length_pkcs7Pad, Nat.mul_mod_right]
  case nonempty => exact List.ne_nil_of_length_pos (by rw [length_pkcs7Pad]; omega)

/-- The removal with the test written byte by byte, for a string that is long enough for any padding. -/
theorem pkcs7Unpad_eq_ite {x : Bytes} (hlen : 16 ≤ x.length) : pkcs7Unpad x =
    if (x.getLastD 0).toNat < 1 ∨ 16 < (x.getLastD 0).toNat ∨
      ∃ b ∈ x.drop (x.length - (x.getLastD 0).toNat), b.toNat ≠ (x.getLastD 0).toNat
    then none else some (x.take (x.length - (x.getLastD 0).toNat)) := by
  have hbad {p : Nat} (hmax : ¬ 16 < p) : x.drop (x.length - p) ≠ List.replicate p (BitVec.ofNat 8 p) ↔
      ∃ b ∈ x.drop (x.length - p), b.toNat ≠ p := by
    rw [ne_eq, eq_replicate_ofNat_iff (by omega) (by rw [List.length_drop]; omega), not_not]
  rw [pkcs7Unpad]
  exact if_congr (or_congr_right (or_congr_right' hbad)) rfl rfl

/-! ECB (R239). -/

theorem blockOfBytes_toList (b : Block) : blockOfBytes b.toList = b := by
  apply Vector.ext
  intro i hi
  simp [blockOfBytes]

theorem toList_blockOfBytes {p : Bytes} (hp : p.length = 16) : (blockOfBytes p).toList = p := by
  apply List.ext_getElem
  · simp [hp]
  · intro i hi hi'
    simp [blockOfBytes, hi']

theorem ecbBlocks_ecbBlocks {f g : Block → Block} (h : ∀ b, g (f b) = b) (n : Nat) :
    ∀ {p : Bytes}, p.length = 16 * n → ecbBlocks g n (ecbBlocks f n p) = p := by
  induction n with
  | zero => exact fun hp => (List.length_eq_zero_iff.1 hp).symm
  | succ n ih =>
    intro p hp
    have hblock : (f (blockOfBytes (p.take 16))).toList.length = 16 := Vector.length_toList
    have hfirst : (p.take 16).length = 16 := by rw [List.length_take]; omega
    have hrest : (p.drop 16).length = 16 * n := by rw [List.length_drop]; omega
    rw [ecbBlocks, ecbBlocks, List.take_left' hblock, List.drop_left' hblock, blockOfBytes_toList, h,
      toList_blockOfBytes hfirst, ih hrest, List.take_append_drop]

/-- Whole blocks deciphered one by one are the blocks that were enciphered. -/
theorem ecb_ecb {f g : Block → Block} (h : ∀ b, g (f b) = b) {p : Bytes} (hp : p.length % 16 = 0) :
    ecb g (ecb f p) = p := by
  have hblocks : (ecb f p).length / 16 = p.length / 16 := by rw [length_ecb, Nat.mul_div_cancel _ (by decide)]
  rw [ecb, hblocks]
  exact ecbBlocks_ecbBlocks h _ (by omega)

/-- The block of a payload of one block. -/
theorem blockOfBytes_eq_blockAt_zero (p : Bytes) : blockOfBytes p = blockAt p 0 := by
  simp only [blockOfBytes, blockAt, Nat.mul_zero, Nat.zero_add]

end Sys2Proof.Machine
end

section
/-! The commands of unit AES (44_aes.md R233 to R237): each command as its checks in order and its effect, in the rules'
own words; the expanded key begins with the key; and a message enciphered and deciphered. -/

namespace Sys2Proof.Machine

/-! The checks. -/

/-- The framing and `LEN = 16`, as the block commands check them (R234, R235). -/
theorem badBlockLength_iff (c : Fields) : (badFrame .payload c || decide (c.len.toNat ≠ 16)) = true ↔
    c.payload.length ≠ c.len.toNat ∨ c.len ≠ 16 := by
  rw [Bool.or_eq_true, badFrame_payload, decide_eq_true_iff, decide_eq_true_iff]
  exact or_congr_right (BitVec.toNat_inj (y := 16)).not

/-- The framing and the limit of `AES.ENCRYPT` (R236). -/
theorem badMessageLength_iff (c : Fields) : (badFrame .payload c || decide (65519 < c.len.toNat)) = true ↔
    c.payload.length ≠ c.len.toNat ∨ 65519 < c.len := by
  rw [Bool.or_eq_true, badFrame_payload, decide_eq_true_iff, decide_eq_true_iff]
  rfl

/-- The framing and the whole blocks of `AES.DECRYPT` (R237). -/
theorem badCiphertextLength_iff (c : Fields) :
    (badFrame .payload c || decide (c.len.toNat = 0) || decide (c.len.toNat % 16 ≠ 0)) = true ↔
      c.payload.length ≠ c.len.toNat ∨ c.len = 0 ∨ c.len.toNat % 16 ≠ 0 := by
  rw [Bool.or_eq_true, Bool.or_eq_true, badFrame_payload, decide_eq_true_iff, decide_eq_true_iff, decide_eq_true_iff,
    or_assoc]
  exact or_congr_right (or_congr_left (BitVec.toNat_inj (y := 0)))

/-! The commands: the checks in order, then the effect. -/

theorem exec_aesSetkey (c : Fields) (s : State) : exec (.aesSetkey c) s = .next
    (if c.arg ≠ 0 then afterError 0x40 0x02 s
     else if c.payload.length ≠ c.len.toNat then afterError 0x40 0x03 s
     else (KeySize.ofBytes c.len.toNat).elim (afterError 0x40 0x12 s)
       fun k => afterOk 0x40 [] (s.loadAesKey k (expandKey k c.payload))) := by
  show execAesSetkey c s = _
  simp only [execAesSetkey, attempt_cons, attempt_nil, argNotZero_eq, badFrame_payload, decide_eq_true_iff]
  cases KeySize.ofBytes c.len.toNat <;>
  · simp only [takeError_eq, respond_eq, ite_next]
    rfl

theorem exec_aesEncblk (c : Fields) (s : State) : exec (.aesEncblk c) s = .next
    (if c.arg ≠ 0 then afterError 0x41 0x02 s
     else if c.payload.length ≠ c.len.toNat ∨ c.len ≠ 16 then afterError 0x41 0x03 s
     else if s.aesKV = false then afterError 0x41 0x04 s
     else afterOk 0x41 (s.encBlock (blockAt c.payload 0)).toList s) := by
  show execAesEncblk c s = _
  simp only [execAesEncblk, attempt_cons, attempt_nil, argNotZero_eq, badBlockLength_iff, decide_eq_true_iff,
    Bool.not_eq_true', blockOfBytes_eq_blockAt_zero, respond_eq, ite_next]
  rfl

theorem exec_aesDecblk (c : Fields) (s : State) : exec (.aesDecblk c) s = .next
    (if c.arg ≠ 0 then afterError 0x42 0x02 s
     else if c.payload.length ≠ c.len.toNat ∨ c.len ≠ 16 then afterError 0x42 0x03 s
     else if s.aesKV = false then afterError 0x42 0x04 s
     else afterOk 0x42 (s.decBlock (blockAt c.payload 0)).toList s) := by
  show execAesDecblk c s = _
  simp only [execAesDecblk, attempt_cons, attempt_nil, argNotZero_eq, badBlockLength_iff, decide_eq_true_iff,
    Bool.not_eq_true', blockOfBytes_eq_blockAt_zero, respond_eq, ite_next]
  rfl

theorem exec_aesEncrypt (c : Fields) (s : State) : exec (.aesEncrypt c) s = .next
    (if c.arg ≠ 0 then afterError 0x43 0x02 s
     else if c.payload.length ≠ c.len.toNat ∨ 65519 < c.len then afterError 0x43 0x03 s
     else if s.aesKV = false then afterError 0x43 0x04 s
     else afterOk 0x43 (ecb s.encBlock (pkcs7Pad c.payload)) s) := by
  show execAesEncrypt c s = _
  simp only [execAesEncrypt, attempt_cons, attempt_nil, argNotZero_eq, badMessageLength_iff, decide_eq_true_iff,
    Bool.not_eq_true', respond_eq, ite_next]
  rfl

theorem answer_unpadOrError (op : Byte) (x : Bytes) (s : State) : answer op (unpadOrError x) s = .next
    ((pkcs7Unpad x).elim (afterError op 0x13 s) fun q => afterOk op q s) := by
  unfold unpadOrError
  cases pkcs7Unpad x <;> rfl

theorem exec_aesDecrypt (c : Fields) (s : State) : exec (.aesDecrypt c) s = .next
    (if c.arg ≠ 0 then afterError 0x44 0x02 s
     else if c.payload.length ≠ c.len.toNat ∨ c.len = 0 ∨ c.len.toNat % 16 ≠ 0 then afterError 0x44 0x03 s
     else if s.aesKV = false then afterError 0x44 0x04 s
     else (pkcs7Unpad (ecb s.decBlock c.payload)).elim (afterError 0x44 0x13 s) fun q => afterOk 0x44 q s) := by
  show execAesDecrypt c s = _
  simp only [execAesDecrypt, attempt_cons, attempt_nil, argNotZero_eq, badCiphertextLength_iff, decide_eq_true_iff,
    Bool.not_eq_true', answer_unpadOrError, ite_next]
  rfl

/-- Settles O41: the rounds between the first and the last are `1` to `Nk + 5`. -/
theorem aesBlockCommandsCipher : Obligations.AesBlockCommandsCipher := by
  unfold Obligations.AesBlockCommandsCipher
  exact fun c s => ⟨exec_aesEncblk c s, exec_aesDecblk c s⟩

/-- Settles O42: the padded message is one block longer than the whole blocks of the message. -/
theorem aesEncryptPadsAndEncrypts : Obligations.AesEncryptPadsAndEncrypts := by
  unfold Obligations.AesEncryptPadsAndEncrypts
  intro c s
  have hblocks : (pkcs7Pad c.payload).length / 16 = c.payload.length / 16 + 1 := by
    rw [length_pkcs7Pad, Nat.mul_div_cancel_left _ (by decide)]
  rw [exec_aesEncrypt, ecb_eq, hblocks]
  rfl

/-- Settles O43: what stage 5 looks at is one block or more, so that the last bytes of any legal count are there. -/
theorem aesDecryptUnpads : Obligations.AesDecryptUnpads := by
  unfold Obligations.AesDecryptUnpads
  intro c s
  rw [exec_aesDecrypt]
  refine congrArg Host.Outcome.next ?_
  refine if_ctx_congr .rfl (fun _ => rfl) fun _ => if_ctx_congr .rfl (fun _ => rfl) fun hlegal =>
    if_ctx_congr .rfl (fun _ => rfl) fun _ => ?_
  obtain ⟨hframe, hsome, hblocks⟩ : c.payload.length = c.len.toNat ∧ c.len ≠ 0 ∧ c.len.toNat % 16 = 0 := by
    simpa only [not_or, not_not] using hlegal
  have hlong : 16 ≤ (ecb s.decBlock c.payload).length := by
    rw [length_ecb]
    bv_omega
  rw [pkcs7Unpad_eq_ite hlong, apply_ite fun q : Option Bytes => q.elim _ _, ecb_eq]
  rfl

/-! The key (R225, R226, R233). -/

theorem KeySize.ofBytes_four_mul_nk (k : KeySize) : KeySize.ofBytes (4 * k.nk) = some k := by
  cases k <;> rfl

theorem scheduleTemp_eq (k : KeySize) (i : Nat) (t : KeyWord) : scheduleTemp k i t =
    if i % k.nk = 0 then ⟨sbox t.b1 ^^^ rc1.getD (i / k.nk - 1) 0, sbox t.b2, sbox t.b3, sbox t.b0⟩
    else if 6 < k.nk ∧ i % k.nk = 4 then ⟨sbox t.b0, sbox t.b1, sbox t.b2, sbox t.b3⟩
    else t := by
  simp [scheduleTemp, subWord, rotWord, rcon, KeyWord.xor]

/-- Words put behind leave the ones before them. -/
theorem getD_foldl_nextWord (k : KeySize) (is : List Nat) : ∀ {ws : List KeyWord} {i : Nat}, i < ws.length →
    (is.foldl (fun ws i => ws ++ [nextWord k ws i]) ws).getD i .zero = ws.getD i .zero := by
  induction is with
  | nil => exact fun _ => rfl
  | cons n is ih =>
    intro ws i hi
    rw [List.foldl_cons, ih (by rw [List.length_append]; omega), List.getD_append _ _ _ _ hi]

/-- The expanded key begins with the key, byte by byte (R226). -/
theorem byte_expandKey (k : KeySize) (key : Bytes) {i j : Nat} (hi : i < k.nk) (hj : j < 4) :
    ((expandKey k key).getD i .zero).byte j = key.getD (4 * i + j) 0 := by
  have hown : i < (keyWords k key).length := by simpa [keyWords] using hi
  rw [expandKey, getD_foldl_nextWord k _ hown, List.getD_eq_getElem _ _ hown]
  simp only [keyWords, List.getElem_map, List.getElem_range]
  interval_cases j <;> rfl

/-- Settles O40: the errors in their order; the loaded words are the expanded key. -/
theorem aesSetkeyExpandsKey : Obligations.AesSetkeyExpandsKey := by
  unfold Obligations.AesSetkeyExpandsKey
  refine ⟨scheduleTemp_eq, fun c s => ⟨fun harg => ?_, fun harg hframe => ?_, fun harg hframe h16 h24 h32 => ?_,
    fun k harg hframe hlen => ?_⟩⟩
  · rw [exec_aesSetkey, if_pos harg]
  · rw [exec_aesSetkey, if_neg (not_not.2 harg), if_pos hframe]
  · have hnone : KeySize.ofBytes c.len.toNat = none :=
      KeySize.ofBytes_eq_none (by bv_omega)
    rw [exec_aesSetkey, if_neg (not_not.2 harg), if_neg (not_not.2 hframe), hnone]
    rfl
  · have hsize : KeySize.ofBytes c.len.toNat = some k := hlen ▸ k.ofBytes_four_mul_nk
    refine ⟨(s.loadAesKey k (expandKey k c.payload)).aesW, s.freeCount + 1, ?exec, fun i j hi hj => ?key,
      followsSchedule_loadAesKey s k c.payload⟩
    case exec =>
      rw [exec_aesSetkey, if_neg (not_not.2 harg), if_neg (not_not.2 hframe), hsize]
      rfl
    case key =>
      rw [List.getD_eq_getElem?_getD, Vector.getElem?_toList,
        loadAesKey_aesW_getD (hi.trans_le (nk_le_words k)), byte_expandKey k _ hi hj]

/-! The round trip (R237). -/

theorem exec_aesEncrypt_of_legal {c : Fields} {s : State} (harg : c.arg = 0) (hframe : c.payload.length = c.len.toNat)
    (hmax : c.len.toNat ≤ 65519) (hkey : s.aesKV = true) :
    exec (.aesEncrypt c) s = .next (afterOk 0x43 (ecb s.encBlock (pkcs7Pad c.payload)) s) := by
  have hfits : ¬ 65519 < c.len := BitVec.not_lt.2 hmax
  rw [exec_aesEncrypt, if_neg (not_not.2 harg), if_neg (not_or.2 ⟨not_not.2 hframe, hfits⟩), if_neg (by simp [hkey])]

theorem exec_aesDecrypt_of_legal {c : Fields} {s : State} {m : Bytes} (harg : c.arg = 0)
    (hframe : c.payload.length = c.len.toNat) (hpos : 0 < c.len.toNat) (hblocks : c.len.toNat % 16 = 0)
    (hkey : s.aesKV = true) (hpad : pkcs7Unpad (ecb s.decBlock c.payload) = some m) :
    exec (.aesDecrypt c) s = .next (afterOk 0x44 m s) := by
  have hsome : c.len ≠ 0 := by bv_omega
  have hlegal := not_or.2 ⟨not_not.2 hframe, not_or.2 ⟨hsome, not_not.2 hblocks⟩⟩
  rw [exec_aesDecrypt, if_neg (not_not.2 harg), if_neg hlegal, if_neg (by simp [hkey]), hpad, Option.elim_some]

theorem length_ecb_pkcs7Pad (f : Block → Block) (m : Bytes) :
    (ecb f (pkcs7Pad m)).length = 16 * (m.length / 16 + 1) := by
  rw [length_ecb, length_pkcs7Pad]
  omega

/-- The blocks undo each other, and so does the padding. -/
theorem pkcs7Unpad_decBlock_encBlock_pkcs7Pad (s : State) (m : Bytes) :
    pkcs7Unpad (ecb s.decBlock (ecb s.encBlock (pkcs7Pad m))) = some m := by
  have hblocks : (pkcs7Pad m).length % 16 = 0 := by rw [length_pkcs7Pad, Nat.mul_mod_right]
  rw [ecb_ecb (f := s.encBlock) (g := s.decBlock) (decBlock_encBlock s.aesNK s.aesW) hblocks, pkcs7Unpad_pkcs7Pad]

/-- Settles O46: the ciphertext is at most 65520 bytes of whole blocks, and the key is still loaded. -/
theorem aesMessageRoundTrip : Obligations.AesMessageRoundTrip := by
  unfold Obligations.AesMessageRoundTrip
  intro s m hkey hm
  have hlenMessage : (withPayload 0 m).len.toNat = m.length := toNat_ofNat_len (by omega)
  obtain ⟨c, hlength, hunpad, hencrypt⟩ : ∃ c : Bytes, c.length = 16 * (m.length / 16 + 1) ∧
      pkcs7Unpad (ecb s.decBlock c) = some m ∧ exec (.aesEncrypt (withPayload 0 m)) s = .next (afterOk 0x43 c s) :=
    ⟨_, length_ecb_pkcs7Pad s.encBlock m, pkcs7Unpad_decBlock_encBlock_pkcs7Pad s m,
      exec_aesEncrypt_of_legal rfl hlenMessage.symm (by omega) hkey⟩
  have hlenCipher : (withPayload 0 c).len.toNat = c.length := toNat_ofNat_len (by omega)
  have hdecrypt : exec (.aesDecrypt (withPayload 0 c)) (afterOk 0x43 c s) = .next (afterOk 0x44 m (afterOk 0x43 c s)) :=
    exec_aesDecrypt_of_legal rfl hlenCipher.symm (by omega) (by omega) hkey hunpad
  exact ⟨c, _, _, hencrypt, lastOutput_afterOk _ _ _, hdecrypt, List.getLast?_concat⟩

end Sys2Proof.Machine
end

section
/-! The key stream of unit RC4 (45_rc4.md R261, R263): a read after a swap, the key scheduling of a key written twice,
and the stream by the number of generation steps. -/

namespace Sys2Proof.Machine

/-! Reads of the array (R261). -/

theorem arrGet_set (S : Rc4Array) (i x v : Byte) :
    arrGet (S.set i.toNat v i.isLt) x = if x = i then v else arrGet S x := by
  simp only [arrGet, Vector.getElem_set, BitVec.toNat_inj, eq_comm (a := i)]

/-- The second write of a swap wins, and at `i = j` both write the same byte. -/
theorem arrGet_arrSwap (S : Rc4Array) (i j x : Byte) : arrGet (arrSwap S i j) x =
    if x = i then arrGet S j else if x = j then arrGet S i else arrGet S x := by
  rw [arrSwap, arrGet_set, arrGet_set]
  by_cases hj : x = j
  · subst hj
    by_cases hi : x = i
    · rw [if_pos rfl, if_pos hi, hi]
    · rw [if_pos rfl, if_neg hi, if_pos rfl]
  · rw [if_neg hj, if_neg hj]

theorem arrGet_arrIdentity (x : Byte) : arrGet arrIdentity x = x := by
  rw [arrGet, arrIdentity, Vector.getElem_ofFn, BitVec.ofNat_toNat, BitVec.setWidth_eq]

/-! The key scheduling (R261). -/

/-- A string written twice has, cyclically, the bytes of the string. -/
theorem getD_append_self_mod (key : Bytes) (i : Nat) :
    (key ++ key).getD (i % (key ++ key).length) 0 = key.getD (i % key.length) 0 := by
  obtain rfl | hne := eq_or_ne key []
  · rfl
  have hpos : 0 < key.length := List.length_pos_iff.2 hne
  rw [List.length_append]
  have hlt : i % (key.length + key.length) < key.length + key.length := Nat.mod_lt _ (by omega)
  have hmod : i % (key.length + key.length) % key.length = i % key.length :=
    Nat.mod_mod_of_dvd i (Nat.dvd_add_self_left.2 dvd_rfl)
  generalize i % (key.length + key.length) = m at hlt hmod
  obtain hfirst | hsecond := Nat.lt_or_ge m key.length
  · rw [List.getD_append _ _ _ _ hfirst, ← hmod, Nat.mod_eq_of_lt hfirst]
  · rw [List.getD_append_right _ _ _ _ hsecond, ← hmod, Nat.mod_eq_sub_mod hsecond, Nat.mod_eq_of_lt (by omega)]

/-- The key scheduling reads its key at `i mod |K|` only. -/
theorem ksa_append_self (key : Bytes) : ksa (key ++ key) = ksa key := by
  have hstep : ksaStep (key ++ key) = ksaStep key := by
    funext t i
    simp only [ksaStep, getD_append_self_mod]
  rw [ksa, ksa, hstep]

/-- Settles O47: the formulas are the definitions' own, the reads after a swap and of the doubled key are computed. -/
theorem rc4Steps : Obligations.Rc4Steps := by
  unfold Obligations.Rc4Steps
  exact ⟨arrGet_arrSwap, arrGet_arrIdentity, fun _ => rfl, fun _ => ⟨rfl, rfl, rfl, rfl⟩,
    fun key _ => ksa_append_self key⟩

/-! The stream after some steps (R263, R264). -/

theorem streamAfter_succ (n : Nat) (t : Rc4Stream) : streamAfter (n + 1) t = (prgaStep (streamAfter n t)).1 :=
  Function.iterate_succ_apply' _ _ _

theorem streamAfter_i (n : Nat) (t : Rc4Stream) : (streamAfter n t).i = t.i + BitVec.ofNat 8 n := by
  induction n with
  | zero => exact (BitVec.add_zero _).symm
  | succ n ih =>
    calc (streamAfter (n + 1) t).i = (streamAfter n t).i + 1 := by rw [streamAfter_succ]; rfl
      _ = t.i + BitVec.ofNat 8 (n + 1) := by rw [ih, BitVec.ofNat_add, BitVec.add_assoc]; rfl

theorem streamAfter_add (n m : Nat) (t : Rc4Stream) : streamAfter (n + m) t = streamAfter m (streamAfter n t) := by
  rw [Nat.add_comm]
  exact Function.iterate_add_apply _ _ _ _

/-- Byte `n + k` of a stream is byte `k` of the stream after `n` steps. -/
theorem streamBytes_add (n m : Nat) (t : Rc4Stream) :
    streamBytes (n + m) t = streamBytes n t ++ streamBytes m (streamAfter n t) := by
  simp only [streamBytes, List.range_add, List.map_append, List.map_map, Function.comp_def, streamAfter_add]

end Sys2Proof.Machine
end

section
/-! The commands of unit RC4 (45_rc4.md R262, R264, R265): each command as its checks in order and its effect, and the
XOR with the same key-stream bytes twice. -/

namespace Sys2Proof.Machine

/-! The commands: the checks in order, then the effect. -/

/-- A key of 1 to 256 bytes (R262). -/
theorem badKeyLength_iff (c : Fields) : (decide (c.len.toNat < 1) || decide (256 < c.len.toNat)) = true ↔
    c.len < 1 ∨ 256 < c.len := by
  rw [Bool.or_eq_true, decide_eq_true_iff, decide_eq_true_iff]
  rfl

theorem exec_rc4Setkey (c : Fields) (s : State) : exec (.rc4Setkey c) s = .next
    (if c.arg ≠ 0 then afterError 0x50 0x02 s
     else if c.payload.length ≠ c.len.toNat then afterError 0x50 0x03 s
     else if c.len < 1 ∨ 256 < c.len then afterError 0x50 0x12 s
     else afterOk 0x50 [] (s.loadRc4Key ⟨ksa c.payload, 0, 0⟩)) := by
  show execRc4Setkey c s = _
  simp only [execRc4Setkey, attempt_cons, attempt_nil, argNotZero_eq, badFrame_payload, badKeyLength_iff,
    decide_eq_true_iff, respond_eq, ite_next]
  rfl

theorem exec_rc4Ks (c : Fields) (s : State) : exec (.rc4Ks c) s = .next
    (if c.arg ≠ 0 then afterError 0x51 0x02 s
     else if c.payload ≠ [] then afterError 0x51 0x03 s
     else if s.rc4Keyed = false then afterError 0x51 0x04 s
     else afterOk 0x51 (streamBytes c.len.toNat s.stream) (s.setStream (streamAfter c.len.toNat s.stream))) := by
  show execRc4Ks c s = _
  simp only [execRc4Ks, attempt_cons, attempt_nil, argNotZero_eq, badFrame_output, decide_eq_true_iff,
    Bool.not_eq_true', keyStream_eq, respond_eq, ite_next]
  rfl

theorem exec_rc4Xor (c : Fields) (s : State) : exec (.rc4Xor c) s = .next
    (if c.arg ≠ 0 then afterError 0x52 0x02 s
     else if c.payload.length ≠ c.len.toNat then afterError 0x52 0x03 s
     else if s.rc4Keyed = false then afterError 0x52 0x04 s
     else afterOk 0x52 (List.zipWith (fun b k => b ^^^ k) c.payload (streamBytes c.payload.length s.stream))
       (s.setStream (streamAfter c.payload.length s.stream))) := by
  show execRc4Xor c s = _
  simp only [execRc4Xor, attempt_cons, attempt_nil, argNotZero_eq, badFrame_payload, decide_eq_true_iff,
    Bool.not_eq_true', xorStream_eq, respond_eq, ite_next]
  rfl

/-- Settles O48: the effect's registers are the scheduled array, two zero indices and the flag. -/
theorem rc4SetkeyStartsStream : Obligations.Rc4SetkeyStartsStream := by
  unfold Obligations.Rc4SetkeyStartsStream
  exact exec_rc4Setkey

/-- Settles O49: the command runs as many steps as it answers bytes, and the steps of a sum are done one part after the
other. -/
theorem rc4KsTakesStreamBytes : Obligations.Rc4KsTakesStreamBytes := by
  unfold Obligations.Rc4KsTakesStreamBytes
  exact ⟨exec_rc4Ks, streamAfter_i, fun n m t => ⟨streamAfter_add n m t, streamBytes_add n m t⟩⟩

/-! `RC4.XOR` twice (R265). -/

theorem length_zipWith_xor {p ks : Bytes} (h : p.length ≤ ks.length) :
    (List.zipWith (fun b k => b ^^^ k) p ks).length = p.length := by
  rw [List.length_zipWith, Nat.min_eq_left h]

/-- XOR with the same bytes twice gives the string back, where they are as many or more. -/
theorem zipWith_xor_zipWith_xor {p ks : Bytes} (h : p.length ≤ ks.length) :
    List.zipWith (fun b k => b ^^^ k) (List.zipWith (fun b k => b ^^^ k) p ks) ks = p := by
  apply List.ext_getElem
  · rw [List.length_zipWith, length_zipWith_xor h, Nat.min_eq_left h]
  · intro k _ _
    rw [List.getElem_zipWith, List.getElem_zipWith, BitVec.xor_assoc, BitVec.xor_self, BitVec.xor_zero]

theorem exec_rc4Xor_of_keyed {s : State} {p : Bytes} (hkey : s.rc4Keyed = true) (hp : p.length ≤ 65535) :
    exec (.rc4Xor (withPayload 0 p)) s = .next
      (afterOk 0x52 (List.zipWith (fun b k => b ^^^ k) p (streamBytes p.length s.stream))
        (s.setStream (streamAfter p.length s.stream))) := by
  have harg : (withPayload 0 p).arg = 0 := rfl
  have hframe : (withPayload 0 p).payload.length = (withPayload 0 p).len.toNat := (toNat_ofNat_len hp).symm
  rw [exec_rc4Xor, if_neg (not_not.2 harg), if_neg (not_not.2 hframe), if_neg (by simp [hkey])]
  rfl

/-- Settles O50: the answer is as long as the payload, so from an equal position the same bytes are XORed again. -/
theorem rc4XorIsItsOwnInverse : Obligations.Rc4XorIsItsOwnInverse := by
  unfold Obligations.Rc4XorIsItsOwnInverse
  refine ⟨exec_rc4Xor, fun s s' p hkey hkey' hstream hp => ?_⟩
  obtain ⟨q, hlength, hback, hforth⟩ : ∃ q : Bytes, q.length = p.length ∧
      List.zipWith (fun b k => b ^^^ k) q (streamBytes p.length s.stream) = p ∧
      exec (.rc4Xor (withPayload 0 p)) s = .next (afterOk 0x52 q (s.setStream (streamAfter p.length s.stream))) :=
    have hlong := (length_streamBytes p.length s.stream).ge
    ⟨_, length_zipWith_xor hlong, zipWith_xor_zipWith_xor hlong, exec_rc4Xor_of_keyed hkey hp⟩
  have hagain : exec (.rc4Xor (withPayload 0 q)) s' = .next
      (afterOk 0x52 p (s'.setStream (streamAfter p.length s.stream))) := by
    rw [exec_rc4Xor_of_keyed hkey' (hlength.trans_le hp), hstream, hlength, hback]
  exact ⟨q, _, _, hforth, lastOutput_afterOk _ _ _, hagain, lastOutput_afterOk _ _ _, rfl⟩

end Sys2Proof.Machine
end

section
/-! The housekeeping commands (46_system.md R280 to R282): each command as its checks in order and its effect, the
number of each status register, and the two resets, which leave what power-on leaves (70_reset_and_hazards.md R340). -/

namespace Sys2Proof.Machine

/-! The commands: the checks in order, then the effect. -/

theorem exec_sysNop (c : Fields) (s : State) : exec (.sysNop c) s = .next
    (if c.arg ≠ 0 then afterError 0x00 0x02 s
     else if c.len ≠ 0 ∨ c.payload ≠ [] then afterError 0x00 0x03 s
     else afterOk 0x00 [] s) := by
  show execSysNop c s = _
  simp only [execSysNop, attempt_cons, attempt_nil, argNotZero_eq, badFrame_noPayload, decide_eq_true_iff, respond_eq,
    ite_next]
  rfl

theorem exec_sysReset (c : Fields) (s : State) : exec (.sysReset c) s = .next
    (if c.arg ≠ 0 then afterError 0x01 0x02 s
     else if c.len ≠ 0 ∨ c.payload ≠ [] then afterError 0x01 0x03 s
     else afterOk 0x01 [] s.resetCore) := by
  show execSysReset c s = _
  simp only [execSysReset, attempt_cons, attempt_nil, argNotZero_eq, badFrame_noPayload, decide_eq_true_iff,
    respond_eq, ite_next]
  rfl

theorem exec_sysRdsr {c : Fields} {r : Csr} (hr : Csr.ofNumber c.arg.toNat = some r) (s : State) :
    exec (.sysRdsr c) s = .next
      (if c.len ≠ 0 ∨ c.payload ≠ [] then afterError 0x02 0x03 s else afterOk 0x02 (wordBytes (s.csr r)) s) := by
  show execSysRdsr c s = _
  simp only [execSysRdsr, hr, attempt_cons, attempt_nil, badFrame_noPayload, decide_eq_true_iff, respond_eq, ite_next]
  rfl

/-- Settles O12: the command is its checks and a response. -/
theorem sysNopDoesNothing : Obligations.SysNopDoesNothing := by
  unfold Obligations.SysNopDoesNothing
  exact exec_sysNop

/-! Reading a status register (R41, R282). -/

/-- The register that `ARG` numbers, by the numbers of R41. -/
theorem csr_of_ofNumber {a : Byte} {r : Csr} (hr : Csr.ofNumber a.toNat = some r) (s : State) :
    s.csr r = if a = 0 then 0x53415801 else if a = 1 then s.status else if a = 2 then s.lastErr
      else if a = 3 then s.shCfg else s.rc4Ij := by
  have hle : a.toNat ≤ 4 := by
    by_contra hgt
    rw [Csr.ofNumber_eq_none hgt] at hr
    cases hr
  obtain rfl | rfl | rfl | rfl | rfl : a = 0 ∨ a = 1 ∨ a = 2 ∨ a = 3 ∨ a = 4 := by bv_omega
  all_goals cases hr; rfl

/-- Settles O13: a number above 4 is an illegal `ARG`, every other is its register's. -/
theorem sysRdsrReadsRegister : Obligations.SysRdsrReadsRegister := by
  unfold Obligations.SysRdsrReadsRegister
  intro c s
  by_cases hnumber : 4 < c.arg
  case pos =>
    rw [if_pos hnumber]
    exact illegalArgumentsAreRefused (.sysRdsr c) s (decide_eq_false (Nat.not_le.2 hnumber))
  case neg =>
    obtain ⟨r, hr⟩ := Csr.exists_ofNumber (Nat.le_of_not_lt hnumber)
    rw [if_neg hnumber, exec_sysRdsr hr, csr_of_ofNumber hr]
    rfl

/-! The two resets (R281, R340). -/

/-- `SYS.RESET` with its checks passed resets the CORE and responds. -/
theorem exec_sysReset_of_legal {c : Fields} (s : State) (harg : c.arg = 0) (hlen : c.len = 0)
    (hpayload : c.payload = []) :
    exec (.sysReset c) s = .next (afterOk 0x01 [] s.resetCore) := by
  rw [exec_sysReset, if_neg (not_not.2 harg), if_neg (not_or.2 ⟨not_not.2 hlen, not_not.2 hpayload⟩)]

/-- The state after power-on is one that a reset may leave, beside the host's deliveries and responses (R47, R340). -/
theorem resetFrom_reset (s : State) : ResetFrom s { State.reset with inbox := s.inbox, outbox := s.outbox } := by
  constructor
  case status => exact (by decide : State.reset.status = 0)
  all_goals rfl

/-- Whatever a reset leaves in the data registers, the host sees the state after power-on (R21, R340). -/
theorem ResetFrom.sameView_reset {s t : State} (h : ResetFrom s t) :
    SameView t { State.reset with inbox := s.inbox, outbox := s.outbox } :=
  .of_resetFrom h (resetFrom_reset s) rfl rfl

/-- Settles O16: the checks of `SYS.RESET` in their order; both resets are `State.resetCore`. -/
theorem resetsClearFlags : Obligations.ResetsClearFlags := by
  unfold Obligations.ResetsClearFlags
  refine ⟨fun c s => ⟨fun harg => ?operand, fun harg hframe => ?length, fun harg hlen hpayload => ?passed⟩,
    fun s rest hin => ?external⟩
  case operand => rw [exec_sysReset, if_pos harg]
  case length => rw [exec_sysReset, if_neg (not_not.2 harg), if_pos hframe]
  case passed => exact ⟨_, exec_sysReset_of_legal s harg hlen hpayload, resetFrom_resetCore s⟩
  case external => exact ⟨_, step_reset hin, resetFrom_resetCore _⟩

/-- Settles O17: what the resets clear is all that the host sees of the state they leave. -/
theorem resetsGiveTheResetView : Obligations.ResetsGiveTheResetView := by
  unfold Obligations.ResetsGiveTheResetView
  obtain ⟨hcommand, hexternal⟩ := resetsClearFlags
  refine ⟨fun c s harg hlen hpayload => ?command, fun s rest hin => ?external⟩
  case command =>
    obtain ⟨-, -, hpassed⟩ := hcommand c s
    obtain ⟨t, hexec, hreset⟩ := hpassed harg hlen hpayload
    exact ⟨t, hexec, hreset.sameView_reset⟩
  case external =>
    obtain ⟨t, hstep, hreset⟩ := hexternal s rest hin
    exact ⟨t, hstep, hreset.sameView_reset⟩

end Sys2Proof.Machine
end

section
/-! Stage 4 of the order of checks (60_exceptions.md R305): the checks of the flags, failed, and which error a command
takes then. -/

namespace Sys2Proof.Machine

section Checks

variable {c : Fields} {op : Byte} {b b' : Bool} {e e' : ErrorCode} {s : State} {f : State → Result}

/-- A command that passes its checks and then answers an error takes that error. -/
theorem attempt_answer_of_error {cs : List Check} {r : State → Except ErrorCode Bytes} (hpass : firstError cs = none)
    (hr : r s = .error e) : attempt op cs s (fun t => answer op (r t) t) = .next (afterError op e.code s) := by
  rw [attempt_pass hpass, hr, answer_error]

/-- What `RSA.ENCRYPT`, `RSA.DECRYPT`, `RSA.SIGN` and `RSA.VERIFY` share (R187 to R190). -/
theorem rsaChecked_of_not_ready {slot : Slot} (harg : c.arg.toNat ≤ 1) (hframe : badFrame .payload c = false)
    (hlen : Config.rsaFits c.len.toNat = true) (hready : ¬ s.slotReady slot = true) :
    rsaChecked op slot c s = .next (afterError op 0x04 s) := by
  refine attempt_answer_of_error (firstError_none.2 ?_) (checked_of_not_ready _ _ hready)
  simp [argAbove_eq_false harg, hframe, rsaTooLong_eq_false hlen]

/-- With `ARG` and the length right, `KP.PERM` and `KP.ROUND` answer an open session before invalid lanes (R133, R134,
R342). -/
theorem attempt_phase_before_valid (harg : b = false) (hlen : b' = false)
    (hflags : ¬ (s.shPhase = .idle ∧ s.kValid = true)) :
    attempt op [⟨b, e⟩, ⟨b', e'⟩, ⟨s.absorbing, .badPhase⟩, ⟨!s.kValid, .notReady⟩] s f =
      .next (afterError op (if s.shPhase = .absorb then 0x05 else 0x04) s) := by
  by_cases hidle : s.shPhase = .idle
  · have hinvalid : (!s.kValid) = true := by simpa [hidle] using hflags
    rw [attempt_fourth_fails harg hlen (absorbing_eq_false hidle) hinvalid, if_neg (by simp [hidle])]
    rfl
  · have hopen := absorbing_of_not_idle hidle
    rw [attempt_third_fails harg hlen hopen, if_pos (of_decide_eq_true hopen)]
    rfl

end Checks

/-- The error of a command whose flags are not as R342 wants them (R305 stage 4): the commands of unit SH need an open
session, the commands of unit KP that write lanes need none, and every other flag is one of readiness. -/
def unreadyError (i : Instr) (s : State) : Byte :=
  if i.op = 0x21 ∨ i.op = 0x22 then 0x05
  else if (i.op = 0x10 ∨ i.op = 0x12 ∨ i.op = 0x13) ∧ s.shPhase = .absorb then 0x05
  else 0x04

/-- For the commands that write lanes the phase alone decides. -/
theorem unreadyError_of_writes_lanes {i : Instr} {s : State} (hop : i.op = 0x10 ∨ i.op = 0x12 ∨ i.op = 0x13) :
    unreadyError i s = if s.shPhase = .absorb then 0x05 else 0x04 := by
  have hnot : ¬ (i.op = 0x21 ∨ i.op = 0x22) := by rcases hop with h | h | h <;> rw [h] <;> decide
  rw [unreadyError, if_neg hnot]
  simp only [hop, true_and]

/-- Settles O9: the commands that need flags, each with the stages before passed. -/
theorem unreadyCommandsAreRefused : Obligations.UnreadyCommandsAreRefused := by
  unfold Obligations.UnreadyCommandsAreRefused
  intro i s harg hframe hlen hflags
  show exec i s = .next (afterError i.op (unreadyError i s) s)
  unfold exec
  have hgood := badFrame_eq_false hframe
  cases i with
  | kpLdst c =>
    have hopen := absorbing_of_not_idle (of_decide_eq_false hflags)
    rw [unreadyError_of_writes_lanes (.inl rfl), if_pos (of_decide_eq_true hopen)]
    exact attempt_third_fails (argNotZero_eq_false (of_decide_eq_true harg))
      (Bool.or_eq_false_iff.2 ⟨hgood, decide_eq_false (not_not.2 (of_decide_eq_true hlen))⟩) hopen
  | kpPerm c =>
    rw [unreadyError_of_writes_lanes (.inr (.inl rfl))]
    exact attempt_phase_before_valid (argNotZero_eq_false (of_decide_eq_true harg)) hgood
      (of_decide_eq_false hflags)
  | kpRound c =>
    rw [unreadyError_of_writes_lanes (.inr (.inr rfl))]
    exact attempt_phase_before_valid (argAbove_eq_false (of_decide_eq_true harg)) hgood
      (of_decide_eq_false hflags)
  | rsaModexp c =>
    have hready : s.slotReady (slotOf c) = false := flagsReady_rsaModexp ▸ hflags
    exact attempt_third_fails (argAbove_eq_false (of_decide_eq_true harg))
      (Bool.or_eq_false_iff.2 ⟨hgood, rsaTooLong_eq_false hlen⟩) (congrArg not hready)
  | rsaEncrypt c =>
    exact rsaChecked_of_not_ready (of_decide_eq_true harg) hgood hlen
      (mt slotReady_pub_iff.1 (of_decide_eq_false hflags))
  | rsaDecrypt c =>
    exact rsaChecked_of_not_ready (of_decide_eq_true harg) hgood hlen
      (mt slotReady_prv_iff.1 (of_decide_eq_false hflags))
  | rsaSign c =>
    exact rsaChecked_of_not_ready (of_decide_eq_true harg) hgood hlen
      (mt slotReady_prv_iff.1 (of_decide_eq_false hflags))
  | rsaVerify c =>
    exact rsaChecked_of_not_ready (of_decide_eq_true harg) hgood hlen
      (mt slotReady_pub_iff.1 (of_decide_eq_false hflags))
  | rsaSignhash c =>
    have hframe : badFrame .payload c = false := hgood
    have hdigest := badDigestLength_eq_false (of_decide_eq_true hlen)
    have hready := mt slotReady_prv_iff.1 (of_decide_eq_false hflags)
    refine attempt_answer_of_error (firstError_none.2 ?_) (checked_of_not_ready _ _ hready)
    simp [argAbove_eq_false (of_decide_eq_true harg), hframe, hdigest]
  | rsaVerifyhash c =>
    have hframe : badFrame .payload c = false := hgood
    have hlimit : c.arg.toNat ≤ c.len.toNat ∧ Config.rsaFits (c.len.toNat - c.arg.toNat) = true := by
      simpa [Instr.lenLegal] using hlen
    have hready := mt slotReady_pub_iff.1 (of_decide_eq_false hflags)
    refine attempt_answer_of_error (e := .notReady) (firstError_none.2 ?_) ?_
    · simp [badDigestLength_eq_false (of_decide_eq_true harg), hframe, hlimit]
    · exact congrArg (Except.map _) (checked_of_not_ready _ _ hready)
  | aesEncblk c =>
    exact attempt_third_fails (argNotZero_eq_false (of_decide_eq_true harg))
      (Bool.or_eq_false_iff.2 ⟨hgood, decide_eq_false (not_not.2 (of_decide_eq_true hlen))⟩) (congrArg not hflags)
  | aesDecblk c =>
    exact attempt_third_fails (argNotZero_eq_false (of_decide_eq_true harg))
      (Bool.or_eq_false_iff.2 ⟨hgood, decide_eq_false (not_not.2 (of_decide_eq_true hlen))⟩) (congrArg not hflags)
  | aesEncrypt c =>
    exact attempt_third_fails (argNotZero_eq_false (of_decide_eq_true harg))
      (Bool.or_eq_false_iff.2 ⟨hgood, decide_eq_false (Nat.not_lt.2 (of_decide_eq_true hlen))⟩) (congrArg not hflags)
  | aesDecrypt c =>
    obtain ⟨hsome, hblocks⟩ : c.len.toNat ≠ 0 ∧ c.len.toNat % 16 = 0 := of_decide_eq_true hlen
    have hlimits := Bool.or_eq_false_iff.2 ⟨hgood, decide_eq_false hsome⟩
    exact attempt_third_fails (argNotZero_eq_false (of_decide_eq_true harg))
      (Bool.or_eq_false_iff.2 ⟨hlimits, decide_eq_false (not_not.2 hblocks)⟩) (congrArg not hflags)
  | kpRdst c => exact attempt_third_fails (argNotZero_eq_false (of_decide_eq_true harg)) hgood (congrArg not hflags)
  | shAbsorb c => exact attempt_third_fails (argNotZero_eq_false (of_decide_eq_true harg)) hgood (congrArg not hflags)
  | shFinal c => exact attempt_third_fails (argNotZero_eq_false (of_decide_eq_true harg)) hgood (congrArg not hflags)
  | rc4Ks c => exact attempt_third_fails (argNotZero_eq_false (of_decide_eq_true harg)) hgood (congrArg not hflags)
  | rc4Xor c => exact attempt_third_fails (argNotZero_eq_false (of_decide_eq_true harg)) hgood (congrArg not hflags)
  | _ => cases hflags

end Sys2Proof.Machine
end
